-- ==== Sys2Proof/Word.lean ====
section
/-! DEFINITION. The two word types of the block: a byte of the output and a Sample of the input. -/

namespace Sys2Proof

/-- An 8-bit unsigned value, bit 0 least significant (00_scope.md R5; `ACC_WIDTH`, R4). -/
abbrev Byte := BitVec 8

/-- One Sample word of `SAMPLE_WIDTH` = 8 bits: bit 0 is DRX, bit 1 is CRX (30_encoding.md R50). -/
abbrev Sample := BitVec 8

end Sys2Proof
end

