-- ==== Sys2Proof/Config.lean ====
section
/-! DEFINITION. The parameters of 00_scope.md R4 at the values this hardware takes. They are constants of
the machine, not state (10_state.md R23), and never change while it runs (20_memory.md R41). -/

namespace Sys2Proof

/-- The two bit-masks supplied at construction (10_state.md R19). -/
structure Masks where
  drx : Sample
  crx : Sample
  deriving DecidableEq, Repr

/-- `DRX_MASK` = 0x01 and `CRX_MASK` = 0x02 (00_scope.md R4). -/
def Config.masks : Masks := { drx := 0x01, crx := 0x02 }

/-- `SAMPLE_WIDTH` (R4; the spec's decision D2). -/
def Config.sampleWidth : Nat := 8

/-- `BYTE_BITS` (R4). -/
def Config.byteBits : Nat := 8

/-- `ACC_WIDTH` (R4; the spec's decision D5). -/
def Config.accWidth : Nat := 8

/-- `PACKET_LEN` (R4): bytes per transport packet, sync byte included.
UNVERIFIED as a literal of the real signal (U11, log entry 13). -/
abbrev Config.packetLen : Nat := 192

/-- `SYNC_A` (R4). UNVERIFIED as a literal of the real signal (U11, log entry 13). -/
def Config.syncA : Byte := 0x47

/-- `SYNC_B` (R4). UNVERIFIED as a literal of the real signal (U11, log entry 13). -/
def Config.syncB : Byte := 0x64

/-- `OVERSAMPLE_MIN` (R4): a duty of the capture source; no rule of the decoder reads it (R155). -/
def Config.oversampleMin : Nat := 8

/-- The type of the packet cursor, 0 to 191 (10_state.md R15, R21; the spec's decision D14). -/
abbrev Cursor := Fin Config.packetLen

/-- The type of the stored bit count, 0 to 7 (10_state.md R13, R21; the spec's decision D6). -/
abbrev Count := Fin 8

end Sys2Proof
end

