-- ==== Sys2Proof/Syntax.lean ====
section
/-! DEFINITION. The eleven operations of 00_scope.md R8, one constructor per row of spec/opcode_table.json, and
the decode words that select them (30_encoding.md R53). -/

namespace Sys2Proof

/-- The three nested levels of decoding (30_encoding.md R53). -/
inductive Level where
  | sample
  | bit
  | byte
  deriving DecidableEq, Repr

/-- An operation with the operands its rule names.
The sample level runs once per Sample; `fall` contains one bit-level operation, and `complete` one byte-level operation. -/
inductive Instr where
  /-- `NOP_LOW`: CRX low, no edge (R70). -/
  | nopLow
  /-- `RISE`: rising edge of CRX (R71). -/
  | rise
  /-- `NOP_HIGH`: CRX high, no edge (R72). -/
  | nopHigh
  /-- `FALL`: falling edge of CRX with the recovered bit d (R73). -/
  | fall (d : Bool)
  /-- `SHIFT`: store acc' and cnt' (R80). -/
  | shift (acc : Byte) (cnt : Count)
  /-- `COMPLETE`: hand the completed byte b to the sync tracker (R81). -/
  | complete (b : Byte)
  /-- `PAYLOAD`: pass the payload byte b through (R90). -/
  | payload (b : Byte)
  /-- `ACQUIRE`: the sync value b seen while hunting (R91). -/
  | acquire (b : Byte)
  /-- `CONFIRM`: the sync value b seen at a packet boundary (R92). -/
  | confirm (b : Byte)
  /-- `LOSE`: the non-sync value b seen at a packet boundary (R93). -/
  | lose (b : Byte)
  /-- `SLIDE`: the non-sync value b seen while hunting (R94). -/
  | slide (b : Byte)
  deriving DecidableEq, Repr

/-- The level of an operation (00_scope.md R8). -/
def Instr.level : Instr → Level
  | .nopLow | .rise | .nopHigh | .fall _ => .sample
  | .shift _ _ | .complete _ => .bit
  | .payload _ | .acquire _ | .confirm _ | .lose _ | .slide _ => .byte

/-- The mnemonic of an operation as spec/opcode_table.json spells it. -/
def Instr.mnemonic : Instr → String
  | .nopLow => "NOP_LOW"
  | .rise => "RISE"
  | .nopHigh => "NOP_HIGH"
  | .fall _ => "FALL"
  | .shift _ _ => "SHIFT"
  | .complete _ => "COMPLETE"
  | .payload _ => "PAYLOAD"
  | .acquire _ => "ACQUIRE"
  | .confirm _ => "CONFIRM"
  | .lose _ => "LOSE"
  | .slide _ => "SLIDE"

/-- A decode word of 30_encoding.md R53, with the operand byte that the enclosing operation computed.
`sample` is `STROBE ++ crx ++ drx`, `bit` is cnt' beside acc', `byte` is `SYNC ++ z ++ m` beside the completed byte. -/
inductive DecodeWord where
  | sample (w : BitVec 3)
  | bit (w : BitVec 4) (acc : Byte)
  | byte (w : BitVec 3) (b : Byte)
  deriving DecidableEq, Repr

/-- The bits of a decode word as the table numbers them, widened to four bits. -/
def DecodeWord.bits : DecodeWord → BitVec 4
  | .sample w => w.setWidth 4
  | .bit w _ => w
  | .byte w _ => w.setWidth 4

/-- The level a decode word belongs to. -/
def DecodeWord.level : DecodeWord → Level
  | .sample _ => .sample
  | .bit _ _ => .bit
  | .byte _ _ => .byte

/-- Why a decode word is no operation (30_encoding.md R55: these words cannot occur). -/
inductive DecodeError where
  /-- A bit-level word 0: cnt' is at least 1. -/
  | countZero
  /-- A bit-level word 9 to 15: cnt' is at most 8. -/
  | countAboveEight
  /-- A byte-level word whose bit m contradicts its byte, where the operation tests m. -/
  | syncBitMismatch
  deriving DecidableEq, Repr

/-- One row of the operation map: a word of its level matches when it agrees with `pat` on the bits of `mask`. -/
structure OpcodeRow where
  mnemonic : String
  level : Level
  mask : BitVec 4
  pat : BitVec 4
  deriving DecidableEq, Repr

end Sys2Proof
end

