-- ==== Sys2Proof/WellFormed.lean ====
section
/-! DEFINITION. Which operations with operands can occur: the operand ranges of the rules R80 and R90 to R94. -/

namespace Sys2Proof

/-- b is one of the two recognised sync byte values (30_encoding.md R55, 42_sync_tracker.md R96). -/
abbrev IsSyncValue (b : Byte) : Prop := b = Config.syncA ∨ b = Config.syncB

/-- `SHIFT` takes cnt' from 1 to 7; `ACQUIRE` and `CONFIRM` take a sync value; `LOSE` and `SLIDE` take any other. -/
def Instr.wellFormed : Instr → Bool
  | .nopLow => true
  | .rise => true
  | .nopHigh => true
  | .fall _ => true
  | .shift _ cnt => decide (cnt ≠ 0)
  | .complete _ => true
  | .payload _ => true
  | .acquire b => decide (IsSyncValue b)
  | .confirm b => decide (IsSyncValue b)
  | .lose b => decide (¬ IsSyncValue b)
  | .slide b => decide (¬ IsSyncValue b)

end Sys2Proof
end

