-- ==== Sys2Proof/Decode.lean ====
section
/-! DEFINITION. From decode words to operations and back (30_encoding.md R53 to R55), and the operation map of
spec/opcode_table.json as data. -/

namespace Sys2Proof

/-- m = 1 exactly when the completed byte is a sync value: an exact comparison of all eight bits (R55). -/
def syncMatch (b : Byte) : Bool := b == Config.syncA || b == Config.syncB

/-- The sample-level decode word `STROBE ++ crx ++ drx` (R53). -/
def sampleWord (t c d : Bool) : BitVec 3 := BitVec.ofBool t ++ BitVec.ofBool c ++ BitVec.ofBool d

/-- The byte-level decode word `SYNC ++ z ++ m` (R53). -/
def byteWord (y z m : Bool) : BitVec 3 := BitVec.ofBool y ++ BitVec.ofBool z ++ BitVec.ofBool m

/-- The sample-level map of R54: every word is one of four operations; d is read only in `FALL`. -/
def decodeSampleLevel (w : BitVec 3) : Instr :=
  match w.getLsbD 2, w.getLsbD 1 with
  | false, false => .nopLow
  | false, true => .rise
  | true, true => .nopHigh
  | true, false => .fall (w.getLsbD 0)

/-- The bit-level map of R55: cnt' 1 to 7 is `SHIFT`, 8 is `COMPLETE`, any other word cannot occur. -/
def decodeBitLevel (w : BitVec 4) (acc : Byte) : Except DecodeError Instr :=
  if h : w.toNat < 8 then
    if w.toNat = 0 then .error .countZero else .ok (.shift acc ⟨w.toNat, h⟩)
  else if w.toNat = 8 then .ok (.complete acc)
  else .error .countAboveEight

/-- The byte-level map of R55. `PAYLOAD` does not examine m, `ACQUIRE` and `SLIDE` do not examine z.
Where m is tested, a word whose m contradicts the byte is no word of R53. -/
def decodeByteLevel (w : BitVec 3) (b : Byte) : Except DecodeError Instr :=
  match w.getLsbD 2, w.getLsbD 1, w.getLsbD 0 with
  | true, false, _ => .ok (.payload b)
  | false, _, true => if syncMatch b then .ok (.acquire b) else .error .syncBitMismatch
  | true, true, true => if syncMatch b then .ok (.confirm b) else .error .syncBitMismatch
  | true, true, false => if syncMatch b then .error .syncBitMismatch else .ok (.lose b)
  | false, _, false => if syncMatch b then .error .syncBitMismatch else .ok (.slide b)

/-- The operation a decode word selects. -/
def decode : DecodeWord → Except DecodeError Instr
  | .sample w => .ok (decodeSampleLevel w)
  | .bit w acc => decodeBitLevel w acc
  | .byte w b => decodeByteLevel w b

/-- The decode word of an operation. DESIGN CHOICE (log entry 10): a don't-care d or z is written 0, and the
don't-care m of `PAYLOAD` as the byte gives it. -/
def encode : Instr → DecodeWord
  | .nopLow => .sample (sampleWord false false false)
  | .rise => .sample (sampleWord false true false)
  | .nopHigh => .sample (sampleWord true true false)
  | .fall d => .sample (sampleWord true false d)
  | .shift acc cnt => .bit (BitVec.ofNat 4 cnt.val) acc
  | .complete b => .bit 8 b
  | .payload b => .byte (byteWord true false (syncMatch b)) b
  | .acquire b => .byte (byteWord false false true) b
  | .confirm b => .byte (byteWord true true true) b
  | .lose b => .byte (byteWord true true false) b
  | .slide b => .byte (byteWord false false false) b

/-- The rows of spec/opcode_table.json: mnemonic, level, mask and match. -/
def opcodeTable : List OpcodeRow :=
  [ { mnemonic := "NOP_LOW", level := .sample, mask := 0b110, pat := 0b000 },
    { mnemonic := "RISE", level := .sample, mask := 0b110, pat := 0b010 },
    { mnemonic := "NOP_HIGH", level := .sample, mask := 0b110, pat := 0b110 },
    { mnemonic := "FALL", level := .sample, mask := 0b110, pat := 0b100 },
    { mnemonic := "SHIFT", level := .bit, mask := 0b1000, pat := 0b0000 },
    { mnemonic := "COMPLETE", level := .bit, mask := 0b1111, pat := 0b1000 },
    { mnemonic := "PAYLOAD", level := .byte, mask := 0b110, pat := 0b100 },
    { mnemonic := "ACQUIRE", level := .byte, mask := 0b101, pat := 0b001 },
    { mnemonic := "CONFIRM", level := .byte, mask := 0b111, pat := 0b111 },
    { mnemonic := "LOSE", level := .byte, mask := 0b111, pat := 0b110 },
    { mnemonic := "SLIDE", level := .byte, mask := 0b101, pat := 0b000 } ]

/-- The mnemonics of the table's rows of a level that agree with `bits` on the bits of their mask. -/
def rowsAt (l : Level) (bits : BitVec 4) : List String :=
  (opcodeTable.filter fun r => r.level == l && bits &&& r.mask == r.pat).map (·.mnemonic)

/-- The mnemonics of the table's rows that a decode word matches at its own level. -/
def matchingRows (w : DecodeWord) : List String := rowsAt w.level w.bits

/-- A word as spec/opcode_table.json numbers its bits, read without a level.
DESIGN CHOICE (log entry 1): the words of the three levels overlap, and a step enters the sample level, so a word
of at most three bits is read there; a word that needs a fourth bit is a bit-level word, its operand byte 0. -/
def tableWord (w : Nat) : Option DecodeWord :=
  if w < 8 then some (.sample (BitVec.ofNat 3 w))
  else if w < 16 then some (.bit (BitVec.ofNat 4 w) 0)
  else none

/-- The instruction read from a table word of `nbits` bits; the table's decode words fit in one byte. -/
def decodeTableWord (nbits w : Nat) : Option Instr :=
  if w < 2 ^ nbits then
    match tableWord w with
    | none => none
    | some word =>
      match decode word with
      | .ok i => some i
      | .error _ => none
  else none

end Sys2Proof
end

