-- ==== Sys2Proof/Machine/State.lean ====
section
/-! DEFINITION. The state of the block (10_state.md R10), the streams that connect it to the outside (20_memory.md
R30) as plain data, the reset state (R22, R150), and the reasons to stop. -/

namespace Sys2Proof.Machine

/-- The values of `STROBE` (10_state.md R11). -/
inductive Strobe where
  | idle
  | asserted
  deriving DecidableEq, Repr

/-- The values of `SYNC` (10_state.md R14); the two operating modes hunting and locked (60_exceptions.md R141). -/
inductive Sync where
  | unsynchronized
  | synchronized
  deriving DecidableEq, Repr

/-- The three diagnostic events (60_exceptions.md R130); an event carries no value. -/
inductive Event where
  | syncAcquired
  | syncLost
  | byteRejected
  deriving DecidableEq, Repr

/-- The output record of one step, which is also the block's output signals (20_memory.md R34,
70_reset_and_hazards.md R153). -/
structure OutRec where
  outValid : Bool
  outByte : Byte
  evAcq : Bool
  evLost : Bool
  evRej : Bool
  deriving DecidableEq, Repr

/-- `NONE`, the all-zero output record (43_step_and_feed.md R110). -/
def OutRec.none : OutRec :=
  { outValid := false, outByte := 0, evAcq := false, evLost := false, evRej := false }

/-- The input signals of one clock cycle (70_reset_and_hazards.md R153). -/
structure Cycle where
  rst : Bool
  inValid : Bool
  inSample : Sample
  deriving DecidableEq, Repr

/-- The decoder's state record σ: the five registers of 10_state.md R10 and nothing else. Neither the masks nor the Sample
being processed, the chunking, or the outputs are in it (R23). -/
structure Decoder where
  /-- `STROBE` (R11). -/
  strobe : Strobe
  /-- `ACC` (R12). -/
  acc : Byte
  /-- `CNT` (R13). -/
  cnt : Count
  /-- `SYNC` (R14). -/
  sync : Sync
  /-- `CUR` (R15). -/
  cur : Cursor
  deriving DecidableEq, Repr

/-- The decoder together with the streams that connect it to the outside (20_memory.md R30), which is what a step without
an argument needs: the registers, the signals the surroundings will drive, and what has been sent (log entries 3 and 6). -/
structure State extends Decoder where
  /-- The input signals of the cycles still to come, the next one first (R30, R153; log entry 3). -/
  input : List Cycle
  /-- The output record of the latest step (R34, R153). -/
  out : OutRec
  /-- The output byte stream so far, oldest first (R30, R33). -/
  bytes : List Byte
  /-- The diagnostic event stream so far, oldest first (R30, R34). -/
  events : List Event
  deriving DecidableEq, Repr

/-- Decoder-start: the registers at the values of 10_state.md R22, no output, and nothing delivered yet. -/
def State.reset : State :=
  { strobe := .idle
    acc := 0
    cnt := 0
    sync := .unsynchronized
    cur := 0
    input := []
    out := OutRec.none
    bytes := []
    events := [] }

/-- The decoder itself never faults (60_exceptions.md R135). -/
inductive Fault where
  /-- Raised by `feedCall` alone, the software wrapper of `feed`, on a null buffer or a size out of range, before any
  Sample is processed (60_exceptions.md R137). Safe: no instruction and no step raises it. -/
  | invalidArgument
  deriving DecidableEq, Repr

/-- No operation and no step is refused. -/
inductive Refusal where
  /-- An instruction without a meaning yet; raised by no arm of `exec`. Safe. -/
  | notModelled (mnemonic : String)
  /-- Raised by `construct` alone, on masks that are not one-hot and distinct (10_state.md R19, the spec's D3 and U1).
  Safe: the model says nothing of such a decoder. -/
  | illegalMasks
  deriving DecidableEq, Repr

end Sys2Proof.Machine
end

