-- ==== Sys2Proof/Machine/Operands.lean ====
section
/-! DEFINITION. The operands of a step: the two bits read from a Sample (30_encoding.md R52), the legality of the
masks (10_state.md R19), and the arithmetic on `ACC` and `CUR` (41_byte_assembler.md R82, 42_sync_tracker.md R97). -/

namespace Sys2Proof.Machine

/-- `crx(s) = 1 if (s & CRX_MASK) != 0 else 0` (30_encoding.md R52). -/
def crx (m : Masks) (x : Sample) : Bool := x &&& m.crx != 0

/-- `drx(s) = 1 if (s & DRX_MASK) != 0 else 0` (30_encoding.md R52). -/
def drx (m : Masks) (x : Sample) : Bool := x &&& m.drx != 0

/-- Exactly one bit set, in a word of `SAMPLE_WIDTH` bits. -/
def oneHot (x : Sample) : Bool := x != 0 && x &&& (x - 1) == 0

/-- Legal masks: exactly one bit set in each, and the two different (10_state.md R19, the spec's D3). -/
def masksLegal (m : Masks) : Bool := oneHot m.drx && oneHot m.crx && m.drx != m.crx

/-- `acc' = ((ACC << 1) | d) truncated to 8 bits` (41_byte_assembler.md R82). -/
def shiftIn (acc : Byte) (d : Bool) : Byte := (acc <<< 1) ||| (BitVec.ofBool d).setWidth 8

/-- `CUR + 1`, replaced by 0 when the sum is 192 (42_sync_tracker.md R97). -/
def nextCursor (c : Cursor) : Cursor :=
  if h : c.val + 1 = Config.packetLen then ⟨0, by decide⟩
  else ⟨c.val + 1, by have := c.isLt; omega⟩

end Sys2Proof.Machine
end

