-- ==== Sys2Proof/Machine/Flags.lean ====
section
/-! DEFINITION. The two flags `STROBE` and `SYNC` (10_state.md R18) as bits of the decode words, and the decode words
of a state (30_encoding.md R53). There are no arithmetic condition codes. -/

namespace Sys2Proof.Machine

/-- `STROBE` as a bit: `Idle` = 0, `Asserted` = 1 (10_state.md R10). -/
def Strobe.bit : Strobe → Bool
  | .idle => false
  | .asserted => true

/-- `SYNC` as a bit: `Unsynchronized` = 0, `Synchronized` = 1 (10_state.md R10). -/
def Sync.bit : Sync → Bool
  | .unsynchronized => false
  | .synchronized => true

/-- The value of `STROBE` that stands for a CRX level (10_state.md R11). -/
def strobeOfLevel (c : Bool) : Strobe := if c then .asserted else .idle

/-- The sample-level decode word of a state and a Sample, `STROBE ++ crx(s) ++ drx(s)`. -/
def State.sampleWord (m : Masks) (s : State) (x : Sample) : BitVec 3 :=
  Sys2Proof.sampleWord s.strobe.bit (crx m x) (drx m x)

/-- The bit-level decode word of a state, cnt' = CNT + 1 as a 4-bit number. -/
def State.bitWord (s : State) : BitVec 4 := BitVec.ofNat 4 (s.cnt.val + 1)

/-- The byte-level decode word of a state and a completed byte, `SYNC ++ (CUR = 0) ++ (b is a sync value)`. -/
def State.byteWord (s : State) (b : Byte) : BitVec 3 :=
  Sys2Proof.byteWord s.sync.bit (decide (s.cur.val = 0)) (syncMatch b)

/-- The operation a Sample selects in a state (30_encoding.md R54). -/
def State.operation (m : Masks) (s : State) (x : Sample) : Instr := decodeSampleLevel (s.sampleWord m x)

end Sys2Proof.Machine
end

