-- ==== Sys2Proof/Machine/Ops.lean ====
section
/-! DEFINITION. The named operations over the registers and the output streams, which every meaning is made of.
The block takes no exception and returns from none (60_exceptions.md R138, R139); what stands in their place is the
one-bit drop `State.dropBit`, shared by `LOSE` and `SLIDE`. -/

namespace Sys2Proof.Machine

/-- `STROBE <- v`. -/
def State.setStrobe (s : State) (v : Strobe) : State := { s with strobe := v }

/-- `SYNC <- v`. -/
def State.setSync (s : State) (v : Sync) : State := { s with sync := v }

/-- `CUR <- v`. -/
def State.setCur (s : State) (v : Cursor) : State := { s with cur := v }

/-- `ACC <- a ; CNT <- c`. -/
def State.setAccCnt (s : State) (a : Byte) (c : Count) : State := { s with acc := a, cnt := c }

/-- An accepted byte restarts the accumulator: `ACC <- 0 ; CNT <- 0` (41_byte_assembler.md R81). -/
def State.restartByte (s : State) : State := s.setAccCnt 0 0

/-- The one-bit drop of a rejected byte: `ACC <- b & 0x7F ; CNT <- 7` (41_byte_assembler.md R81, R84).
UNVERIFIED as the intended recovery (U7, log entry 12). -/
def State.dropBit (s : State) (b : Byte) : State := s.setAccCnt (b &&& 0x7F) 7

/-- Start the step's output record as `NONE` (43_step_and_feed.md R110). -/
def State.clearOut (s : State) : State := { s with out := OutRec.none }

/-- `Emit(b)`: append b to the output byte stream (20_memory.md R33) and show it in the record (R34). -/
def State.emit (s : State) (b : Byte) : State :=
  { s with out := { s.out with outValid := true, outByte := b }, bytes := s.bytes ++ [b] }

/-- Set the flag of an event in an output record (30_encoding.md R57). -/
def OutRec.raise (r : OutRec) : Event → OutRec
  | .syncAcquired => { r with evAcq := true }
  | .syncLost => { r with evLost := true }
  | .byteRejected => { r with evRej := true }

/-- `Diag(e)`: set the event's flag in the record (60_exceptions.md R130) and append it to the event stream. -/
def State.diag (s : State) (e : Event) : State :=
  { s with out := s.out.raise e, events := s.events ++ [e] }

/-- Reset's whole effect on the block: the five registers take their reset values and the outputs are 0
(70_reset_and_hazards.md R150, R153). DESIGN CHOICE (log entry 5): what the sink already received stays. -/
def State.applyReset (s : State) : State :=
  { s with toDecoder := State.reset.toDecoder, out := OutRec.none }

/-- The byte a record adds to the output byte stream (20_memory.md R34). -/
def OutRec.byteList (r : OutRec) : List Byte := if r.outValid then [r.outByte] else []

/-- The events a record adds to the diagnostic stream; DESIGN CHOICE of the spec, D11 (log entry 7): `SyncLost`
before `ByteRejected` where a list is needed (60_exceptions.md R134). -/
def OutRec.eventList (r : OutRec) : List Event :=
  (if r.evAcq then [.syncAcquired] else []) ++
    ((if r.evLost then [.syncLost] else []) ++ (if r.evRej then [.byteRejected] else []))

/-- `ev[2:0]`: bit 0 `SyncAcquired`, bit 1 `SyncLost`, bit 2 `ByteRejected` (30_encoding.md R57). -/
def OutRec.ev (r : OutRec) : BitVec 3 :=
  BitVec.ofBool r.evRej ++ BitVec.ofBool r.evLost ++ BitVec.ofBool r.evAcq

end Sys2Proof.Machine
end

