-- ==== Sys2Proof/Machine/Tracker.lean ====
section
/-! DEFINITION. Family 3, the sync and packet tracker: `PAYLOAD`, `ACQUIRE`, `CONFIRM`, `LOSE`, `SLIDE`
(42_sync_tracker.md R90 to R94). Which of them runs is decided in `COMPLETE`; each has its effect in every state. -/

namespace Sys2Proof.Machine

/-- `PAYLOAD` (R90): `Emit(b)`, the cursor advances, the accumulator restarts; no event, `SYNC` unchanged. -/
def execPayload (b : Byte) (s : State) : Host.Outcome State Fault Refusal :=
  .next ((s.clearOut.emit b).setCur (nextCursor s.cur)).restartByte

/-- `ACQUIRE` (R91): `Emit(b)`, `Diag(SyncAcquired)`, `SYNC <- Synchronized`, `CUR <- 1`, the accumulator restarts. -/
def execAcquire (b : Byte) (s : State) : Host.Outcome State Fault Refusal :=
  .next ((((s.clearOut.emit b).diag .syncAcquired).setSync .synchronized).setCur 1).restartByte

/-- `CONFIRM` (R92): `Emit(b)`, `SYNC <- Synchronized`, `CUR <- 1`, the accumulator restarts; no event. -/
def execConfirm (b : Byte) (s : State) : Host.Outcome State Fault Refusal :=
  .next (((s.clearOut.emit b).setSync .synchronized).setCur 1).restartByte

/-- `LOSE` (R93): `Diag(SyncLost)`, `Diag(ByteRejected)`, `SYNC <- Unsynchronized`, the one-bit drop; `CUR` unchanged,
nothing emitted. -/
def execLose (b : Byte) (s : State) : Host.Outcome State Fault Refusal :=
  .next ((((s.clearOut.diag .syncLost).diag .byteRejected).setSync .unsynchronized).dropBit b)

/-- `SLIDE` (R94): `Diag(ByteRejected)`, `SYNC <- Unsynchronized`, the one-bit drop; `CUR` unchanged, nothing
emitted. -/
def execSlide (b : Byte) (s : State) : Host.Outcome State Fault Refusal :=
  .next (((s.clearOut.diag .byteRejected).setSync .unsynchronized).dropBit b)

end Sys2Proof.Machine
end

