-- ==== Sys2Proof/Machine/Assembler.lean ====
section
/-! DEFINITION. Family 2, the byte assembler: `SHIFT` and `COMPLETE` (41_byte_assembler.md R80, R81). -/

namespace Sys2Proof.Machine

/-- `SHIFT` (R80): `ACC <- acc' ; CNT <- cnt'`, nothing sent. -/
def execShift (acc : Byte) (cnt : Count) (s : State) : Host.Outcome State Fault Refusal :=
  .next (s.clearOut.setAccCnt acc cnt)

/-- `COMPLETE` (R81): exactly one byte-level operation, chosen by `SYNC`, `CUR = 0` and the sync match as in
43_step_and_feed.md R110; it writes `ACC` and `CNT` itself. -/
def execComplete (b : Byte) (s : State) : Host.Outcome State Fault Refusal :=
  if s.sync = .synchronized ∧ s.cur.val ≠ 0 then execPayload b s
  else if syncMatch b then
    if s.sync = .unsynchronized then execAcquire b s else execConfirm b s
  else
    if s.sync = .synchronized then execLose b s else execSlide b s

end Sys2Proof.Machine
end

