-- ==== Sys2Proof/Machine/Sampler.lean ====
section
/-! DEFINITION. Family 1, the edge-triggered bit sampler: `NOP_LOW`, `RISE`, `NOP_HIGH`, `FALL`
(40_bit_sampler.md R70 to R73). -/

namespace Sys2Proof.Machine

/-- `NOP_LOW` (R70): no register written, the output record all zero. -/
def execNopLow (s : State) : Host.Outcome State Fault Refusal := .next s.clearOut

/-- `RISE` (R71): `STROBE <- Asserted`, the output record all zero. -/
def execRise (s : State) : Host.Outcome State Fault Refusal := .next (s.clearOut.setStrobe .asserted)

/-- `NOP_HIGH` (R72): no register written, the output record all zero. -/
def execNopHigh (s : State) : Host.Outcome State Fault Refusal := .next s.clearOut

/-- `FALL` (R73): `STROBE <- Idle`, then with acc' and cnt' = CNT + 1 either `SHIFT` (cnt' <= 7) or `COMPLETE`. -/
def execFall (d : Bool) (s : State) : Host.Outcome State Fault Refusal :=
  if h : s.cnt.val + 1 ≤ 7 then
    execShift (shiftIn s.acc d) ⟨s.cnt.val + 1, Nat.lt_succ_of_le h⟩ (s.setStrobe .idle)
  else
    execComplete (shiftIn s.acc d) (s.setStrobe .idle)

end Sys2Proof.Machine
end

