-- ==== Sys2Proof/Machine/Dispatch.lean ====
section
/-! DEFINITION. One arm per operation of spec/opcode_table.json. -/

namespace Sys2Proof.Machine

/-- The meaning of each operation. -/
def exec (i : Instr) (s : State) : Host.Outcome State Fault Refusal :=
  match i with
  -- family 1, the edge-triggered bit sampler
  | .nopLow => Sys2Proof.Machine.execNopLow s
  | .rise => Sys2Proof.Machine.execRise s
  | .nopHigh => Sys2Proof.Machine.execNopHigh s
  | .fall d => Sys2Proof.Machine.execFall d s
  -- family 2, the byte assembler
  | .shift acc cnt => Sys2Proof.Machine.execShift acc cnt s
  | .complete b => Sys2Proof.Machine.execComplete b s
  -- family 3, the sync and packet tracker
  | .payload b => Sys2Proof.Machine.execPayload b s
  | .acquire b => Sys2Proof.Machine.execAcquire b s
  | .confirm b => Sys2Proof.Machine.execConfirm b s
  | .lose b => Sys2Proof.Machine.execLose b s
  | .slide b => Sys2Proof.Machine.execSlide b s

end Sys2Proof.Machine
end

