-- ==== Sys2Proof/Machine/Feed.lean ====
section
/-! DEFINITION. One Sample (43_step_and_feed.md R110), one clock cycle (70_reset_and_hazards.md R153), a chunk of
Samples (R112), the software wrapper of `feed` (60_exceptions.md R137) and construction (70_reset_and_hazards.md R150). -/

namespace Sys2Proof.Machine

/-- `step(σ, s)` of R110: the operation the Sample selects in the state, run. The output record is `out` of the next
state. -/
def takeSample (m : Masks) (x : Sample) (s : State) : Host.Outcome State Fault Refusal :=
  exec (s.operation m x) s

/-- A cycle that presents a Sample. -/
def Cycle.present (x : Sample) : Cycle := { rst := false, inValid := true, inSample := x }

/-- A cycle with in_valid = 0. -/
def Cycle.idle : Cycle := { rst := false, inValid := false, inSample := 0 }

/-- One clock cycle of R153: rst resets; otherwise in_valid decides between a step and holding with outputs 0. -/
def runCycle (m : Masks) (c : Cycle) (s : State) : Host.Outcome State Fault Refusal :=
  if c.rst then .next s.applyReset
  else if c.inValid then takeSample m c.inSample s
  else .next s.clearOut

/-- The next pending cycle runs. DESIGN CHOICE (log entry 4): where none is pending, the capture source presents no
Sample, which is a cycle with in_valid = 0. -/
def stepWith (m : Masks) (s : State) : Host.Outcome State Fault Refusal :=
  match s.input with
  | [] => runCycle m Cycle.idle s
  | c :: rest => runCycle m c { s with input := rest }

/-- `feed(σ, ss)` of R112: `step` over the Samples in order, giving the last state and the output records in order. -/
def feed (m : Masks) : List Sample → State → Host.Outcome (State × List OutRec) Fault Refusal
  | [], s => .next (s, [])
  | x :: xs, s =>
    match takeSample m x s with
    | .next t =>
      match feed m xs t with
      | .next (u, rs) => .next (u, t.out :: rs)
      | .fault r => .fault r
      | .refused r => .refused r
    | .fault r => .fault r
    | .refused r => .refused r

/-- A software wrapper that takes a buffer (`none` is the null pointer) and a size (60_exceptions.md R137, the spec's
D15): a malformed call is rejected before any Sample, so the caller's state stays as it was.
DESIGN CHOICE (log entry 9): a size beyond the buffer is out of range too. -/
def feedCall (m : Masks) (buffer : Option (List Sample)) (size : Int) (s : State) :
    Host.Outcome (State × List OutRec) Fault Refusal :=
  match buffer with
  | none => .fault .invalidArgument
  | some xs =>
    if 0 ≤ size ∧ size ≤ xs.length then feed m (xs.take size.toNat) s
    else .fault .invalidArgument

/-- Construction with the two masks (70_reset_and_hazards.md R150, R152): the reset state, or a refusal where the masks
are not legal (10_state.md R19, U1). The decoder built with legal masks `m` is `stepWith m`. -/
def construct (m : Masks) : Host.Outcome State Fault Refusal :=
  if masksLegal m then .next State.reset else .refused .illegalMasks

end Sys2Proof.Machine
end

