-- ==== Sys2Proof/Machine/Stream.lean ====
section
/-! DEFINITION. Sample streams: the four symbols (30_encoding.md R51), the pseudo-operations of the test-bench notation
(R58), the bits a Sample sequence delivers (40_bit_sampler.md R74, 41_byte_assembler.md R85), and what it means that a
stream is correctly strobe/data-encoded (R58). -/

namespace Sys2Proof.Machine

/-- The canonical Sample word with the given CRX and DRX levels; `L0` 0x00, `L1` 0x01, `H0` 0x02, `H1` 0x03 (R51). -/
def symbol (c d : Bool) : Sample := (BitVec.ofBool c ++ BitVec.ofBool d).setWidth 8

/-- `BIT d` is `Hd Ld` (R58). -/
def bitStream (d : Bool) : List Sample := [symbol true d, symbol false d]

/-- `BITn d, h, l` is h copies of `Hd`, then l copies of `Ld` (R58). -/
def bitNStream (d : Bool) (h l : Nat) : List Sample :=
  List.replicate h (symbol true d) ++ List.replicate l (symbol false d)

/-- The bits of a byte, most significant first (20_memory.md R31). -/
def byteBits (v : Byte) : List Bool :=
  [v.getLsbD 7, v.getLsbD 6, v.getLsbD 5, v.getLsbD 4, v.getLsbD 3, v.getLsbD 2, v.getLsbD 1, v.getLsbD 0]

/-- `BIT` for each bit of a list. -/
def bitsStream (ds : List Bool) : List Sample := ds.flatMap bitStream

/-- `BYTE v` (R58). -/
def byteStream (v : Byte) : List Sample := bitsStream (byteBits v)

/-- `BYTEn v, h, l` (R58). -/
def byteNStream (v : Byte) (h l : Nat) : List Sample := (byteBits v).flatMap fun d => bitNStream d h l

/-- `BYTE` for each byte of a list; `PACKET v0, ..., v191` at 192 bytes (R58). -/
def packetStream (vs : List Byte) : List Sample := vs.flatMap byteStream

/-- `REST n` is n copies of `L0` (R58). -/
def restStream (n : Nat) : List Sample := List.replicate n (symbol false false)

/-- `GLITCH d`: the same Samples as `BIT d` (R58). -/
def glitchStream (d : Bool) : List Sample := bitStream d

/-- The bits recovered from a Sample sequence, `STROBE` being t before it: DRX of each Sample with CRX low that
directly follows CRX high (40_bit_sampler.md R73, R74). -/
def recoveredBits (m : Masks) : Strobe → List Sample → List Bool
  | _, [] => []
  | .asserted, x :: xs =>
    if crx m x then recoveredBits m .asserted xs else drx m x :: recoveredBits m .idle xs
  | .idle, x :: xs => recoveredBits m (strobeOfLevel (crx m x)) xs

/-- A bit list read as a binary number, the last bit as bit 0 (20_memory.md R31, 41_byte_assembler.md R85). -/
def bitsValue (ds : List Bool) : Nat := ds.foldl (fun v d => 2 * v + d.toNat) 0

/-- The latest n bits of a list. -/
def latestBits (n : Nat) (ds : List Bool) : List Bool := ds.drop (ds.length - n)

/-- The first 8-bit window of a bit list that equals a sync value, at offset 0, 1, 2, ... (43_step_and_feed.md R119). -/
def firstSyncWindow : List Bool → Option Byte
  | [] => none
  | d :: ds =>
    if 8 ≤ (d :: ds).length ∧ syncMatch (BitVec.ofNat 8 (bitsValue ((d :: ds).take 8))) then
      some (BitVec.ofNat 8 (bitsValue ((d :: ds).take 8)))
    else firstSyncWindow ds

/-- Correctly strobe/data-encoded (R58): each data bit is at least one Sample with CRX high and then at least one with
CRX low, the first of these carrying the bit on DRX; Samples with CRX low may stand before and between. -/
inductive Encodes (m : Masks) : List Bool → List Sample → Prop where
  | nil : Encodes m [] []
  | rest (x : Sample) (ds : List Bool) (xs : List Sample) :
      crx m x = false → Encodes m ds xs → Encodes m ds (x :: xs)
  | bit (highs : List Sample) (x : Sample) (ds : List Bool) (xs : List Sample) :
      highs ≠ [] → (∀ y ∈ highs, crx m y = true) → crx m x = false → Encodes m ds xs →
      Encodes m (drx m x :: ds) (highs ++ x :: xs)

/-- The bytes seen where one bit p stands too early before the bytes vs: each is the bit left over, then the upper
seven bits of the true byte (42_sync_tracker.md R99 lines 2 and 4). -/
def slippedBytes : Bool → List Byte → List Byte
  | _, [] => []
  | p, v :: vs => (BitVec.ofBool p ++ v.extractLsb' 1 7) :: slippedBytes (v.getLsbD 0) vs

end Sys2Proof.Machine
end

