-- ==== Sys2Proof/Machine/Fetch.lean ====
section
/-! DEFINITION. How a table word is put where the next step takes it from. The block fetches nothing (10_state.md R17): the
next Sample and the state select the operation. -/

namespace Sys2Proof.Machine

/-- A sample-level word sets `STROBE` to its bit 2 and presents the Sample of its bits 1 and 0.
The bit-level word 8 sets what makes a falling edge complete the byte 0; any other word changes nothing.
DESIGN CHOICE (log entry 2). -/
def State.placeTableWord (s : State) (nbits w : Nat) : State :=
  match decodeTableWord nbits w with
  | none => s
  | some (.complete b) =>
    { s with
      strobe := .asserted
      acc := b
      cnt := 7
      input := Cycle.present (symbol false false) :: s.input }
  | some _ =>
    { s with
      strobe := strobeOfLevel (w.testBit 2)
      input := Cycle.present (symbol (w.testBit 1) (w.testBit 0)) :: s.input }

end Sys2Proof.Machine
end

