-- ==== Sys2Proof/Machine/Step.lean ====
section
/-! DEFINITION. One step of this hardware, and how a table word is put where the next step takes it from. -/

namespace Sys2Proof.Machine

/-- One clock cycle of the decoder with `CRX_MASK` = 0x02 and `DRX_MASK` = 0x01. -/
def step (s : State) : Host.Outcome State Fault Refusal := stepWith Config.masks s

/-- s made ready so that the very next step runs the instruction of the table word w (log entry 2). -/
def State.withFetchWord (s : State) (nbits w : Nat) : State := s.placeTableWord nbits w

end Sys2Proof.Machine
end

