-- ==== Sys2Proof/Safety.lean ====
section
/-! DEFINITION. What counts as a safe state and a legal output: the invariants of 10_state.md R21, the six kinds of
output record of 20_memory.md R34, and the alternation of the sync events (43_step_and_feed.md R119). -/

namespace Sys2Proof.Machine

/-- `ACC < 2^CNT` (10_state.md R21 line 3) and `CUR = 0` while `Unsynchronized` (line 4); lines 1 and 2 are the types
of `CNT` and `CUR`. -/
abbrev State.Inv (s : State) : Prop :=
  s.acc.toNat < 2 ^ s.cnt.val ∧ (s.sync = .unsynchronized → s.cur = 0)

/-- The six kinds of output record that can occur (20_memory.md R34). -/
abbrev OutRec.Legal (r : OutRec) : Prop :=
  r = OutRec.none ∨
  (r.outValid = true ∧ r.evAcq = false ∧ r.evLost = false ∧ r.evRej = false) ∨
  (r.outValid = true ∧ IsSyncValue r.outByte ∧ r.evAcq = true ∧ r.evLost = false ∧ r.evRej = false) ∨
  (r.outValid = false ∧ r.outByte = 0 ∧ r.evAcq = false ∧ r.evRej = true)

/-- The events other than `ByteRejected`. -/
def syncEvents (es : List Event) : List Event := es.filter fun e => e != .byteRejected

/-- The list alternates between `SyncAcquired` and `SyncLost`, starting with `SyncAcquired` when the flag is true
(43_step_and_feed.md R119 line 4). -/
def alternates : Bool → List Event → Bool
  | _, [] => true
  | true, .syncAcquired :: es => alternates false es
  | false, .syncLost :: es => alternates true es
  | _, _ :: _ => false

/-- Two states agree on everything a step reads (10_state.md R23: no rule reads the output streams). -/
abbrev State.SameInputs (s t : State) : Prop :=
  s.strobe = t.strobe ∧ s.acc = t.acc ∧ s.cnt = t.cnt ∧ s.sync = t.sync ∧ s.cur = t.cur ∧ s.input = t.input

/-- Two states agree on the registers and streams that only recovered bits can change: all but `STROBE`, the pending
input and the latest record (30_encoding.md R59). -/
abbrev State.SameDecoding (s t : State) : Prop :=
  s.acc = t.acc ∧ s.cnt = t.cnt ∧ s.sync = t.sync ∧ s.cur = t.cur ∧ s.bytes = t.bytes ∧ s.events = t.events

end Sys2Proof.Machine
end

