-- ==== Sys2Proof/Certificates/Slice0/Obligations.lean ====
section
/-! DEFINITION. The statements for the provers, from the numbered rules of spec/. `takeSample m x s` is one Sample's
step under the masks m, `feed m xs s` a chunk of Samples, `step` one clock cycle of this hardware. -/

open Sys2Proof Sys2Proof.Machine

/-! ## Reset -/

/-- R22, R150: the registers after reset, with no byte and no event. The values of `ACC` and `CUR` are the spec's own
choice (its D7); the empty streams and the empty queue of pending cycles are the model's (log entries 3 and 8). -/
def Obligations.ResetLeavesRegistersAndNoOutput : Prop :=
  State.reset.strobe = .idle ∧ State.reset.acc = 0 ∧ State.reset.cnt = 0 ∧
  State.reset.sync = .unsynchronized ∧ State.reset.cur = 0 ∧
  State.reset.out = OutRec.none ∧ State.reset.bytes = [] ∧ State.reset.events = [] ∧ State.reset.input = []

/-- The invariant of `StepKeepsInvariant` holds at reset (R21, R22). -/
def Obligations.ResetMeetsInvariant : Prop := State.reset.Inv

/-! ## Encodings -/

/-- R50, R52, R56: with this hardware's masks CRX is bit 1 of the Sample and DRX bit 0. Rests on the spec's D2, D3, D4. -/
def Obligations.SampleBitsAreCrxAndDrx : Prop :=
  ∀ x : Sample, crx Config.masks x = x.getLsbD 1 ∧ drx Config.masks x = x.getLsbD 0

/-- R54: the four rows of the sample-level map, for every decode word, and no second row matches. -/
def Obligations.SampleMapGivesEachOperation : Prop :=
  ∀ d : Bool,
    decode (.sample (sampleWord false false d)) = .ok .nopLow ∧
    decode (.sample (sampleWord false true d)) = .ok .rise ∧
    decode (.sample (sampleWord true true d)) = .ok .nopHigh ∧
    decode (.sample (sampleWord true false d)) = .ok (.fall d) ∧
    ∀ t c : Bool, (matchingRows (.sample (sampleWord t c d))).length = 1

/-- R55: the bit-level and byte-level maps with their don't-care bits, the words that cannot occur, and the sync match. -/
def Obligations.BitAndByteMapsGiveEachOperation : Prop :=
  (∀ (acc : Byte) (c : Count), c ≠ 0 → decode (.bit (BitVec.ofNat 4 c.val) acc) = .ok (.shift acc c)) ∧
  (∀ acc : Byte, decode (.bit 8 acc) = .ok (.complete acc)) ∧
  (∀ acc : Byte, decode (.bit 0 acc) = .error .countZero) ∧
  (∀ (acc : Byte) (w : BitVec 4), 8 < w.toNat → decode (.bit w acc) = .error .countAboveEight) ∧
  (∀ b : Byte, syncMatch b = true ↔ b = 0x47 ∨ b = 0x64) ∧
  (∀ (b : Byte) (m : Bool), decode (.byte (byteWord true false m) b) = .ok (.payload b)) ∧
  (∀ (b : Byte) (z : Bool), syncMatch b = true → decode (.byte (byteWord false z true) b) = .ok (.acquire b)) ∧
  (∀ b : Byte, syncMatch b = true → decode (.byte (byteWord true true true) b) = .ok (.confirm b)) ∧
  (∀ b : Byte, syncMatch b = false → decode (.byte (byteWord true true false) b) = .ok (.lose b)) ∧
  (∀ (b : Byte) (z : Bool), syncMatch b = false → decode (.byte (byteWord false z false) b) = .ok (.slide b)) ∧
  (∀ w : BitVec 3, ∀ b : Byte, (matchingRows (.byte w b)).length = 1)

/-- R53, R55, R73: `FALL` runs, with `STROBE` set to `Idle`, exactly the operation that the bit-level decode word
cnt' = CNT + 1 selects.
In every state, also where the decode word would not select the operation: the model's reading, DEDUCED, log entry 11. -/
def Obligations.FallRunsTheBitLevelDecoding : Prop :=
  ∀ (s : State) (d : Bool), ∃ i, decode (.bit s.bitWord (shiftIn s.acc d)) = .ok i ∧ i.level = .bit ∧
    i.wellFormed = true ∧ exec (.fall d) s = exec i (s.setStrobe .idle)

/-- R53, R55, R81: `COMPLETE` runs exactly the operation that the byte-level decode word selects.
In every state, also where the decode word would not select the operation: the model's reading, DEDUCED, log entry 11. -/
def Obligations.CompleteRunsTheByteLevelDecoding : Prop :=
  ∀ (s : State) (b : Byte), ∃ i, decode (.byte (s.byteWord b) b) = .ok i ∧ i.level = .byte ∧
    i.wellFormed = true ∧ exec (.complete b) s = exec i s

/-- R53 to R55: decoding the decode word of a well-formed operation gives it back, every operand at every value. -/
def Obligations.DecodeOfEncodeIsIdentity : Prop :=
  ∀ i : Instr, i.wellFormed = true → decode (encode i) = .ok i

/-- R53 to R55: whatever word decodes, the operation is well-formed, is of the word's level, is named by the only row of
the table that matches, and is encoded to a word of the same meaning and row.
That `ACQUIRE`, `CONFIRM`, `LOSE` and `SLIDE` decode only with a byte their rule allows is the model's choice to reject a word
whose tested m contradicts its byte (DESIGN CHOICE, log entry 10). -/
def Obligations.DecodedOperationsAreWellFormed : Prop :=
  ∀ (w : DecodeWord) (i : Instr), decode w = .ok i →
    i.wellFormed = true ∧ i.level = w.level ∧ matchingRows w = [i.mnemonic] ∧
    decode (encode i) = .ok i ∧ matchingRows (encode i) = [i.mnemonic]

/-- R54, R55: words written out bit by bit from the spec's encodings. -/
def Obligations.SpecWordsDecode : Prop :=
  decode (.sample 0b001) = .ok .nopLow ∧ decode (.sample 0b010) = .ok .rise ∧
  decode (.sample 0b101) = .ok (.fall true) ∧ decode (.bit 0b0111 0x46) = .ok (.shift 0x46 7) ∧
  decode (.bit 0b1000 0x47) = .ok (.complete 0x47) ∧ decode (.bit 0b0000 0x00) = .error .countZero ∧
  decode (.byte 0b110 0xA3) = .ok (.lose 0xA3) ∧ decode (.byte 0b011 0x64) = .ok (.acquire 0x64) ∧
  decode (.byte 0b101 0x47) = .ok (.payload 0x47)

/-! ## The step -/

/-- R110, R153: when the next cycle presents a Sample, the step is the operation that the Sample and the state select,
run after the cycle is taken from the queue of pending cycles (log entry 3). -/
def Obligations.StepRunsTheDecodedOperation : Prop :=
  ∀ (s : State) (x : Sample) (rest : List Cycle), s.input = Cycle.present x :: rest →
    step s = exec (s.operation Config.masks x) { s with input := rest } ∧
    decode (.sample (s.sampleWord Config.masks x)) = .ok (s.operation Config.masks x)

/-- R150, R153 (the spec's D8): a cycle with rst = 1 gives the five registers their reset values and outputs 0, whatever
in_valid is; the streams already sent stay (the model's choice, log entry 5). -/
def Obligations.StepOnRstResetsTheRegisters : Prop :=
  ∀ (s : State) (v : Bool) (x : Sample) (rest : List Cycle), s.input = ⟨true, v, x⟩ :: rest →
    step s = .next { State.reset with input := rest, bytes := s.bytes, events := s.events }

/-- R153 (the spec's D1): a cycle with in_valid = 0 holds the registers and shows outputs 0, and so does a step with no
pending cycle (the model's choice, log entry 4). -/
def Obligations.StepWithoutSampleHolds : Prop :=
  (∀ (s : State) (x : Sample) (rest : List Cycle), s.input = ⟨false, false, x⟩ :: rest →
    step s = .next { s with input := rest, out := OutRec.none }) ∧
  ∀ s : State, s.input = [] → step s = .next { s with out := OutRec.none }

/-! ## Family 1, the bit sampler -/

/-- R70: CRX low with `STROBE` `Idle` runs `NOP_LOW`, which writes no register and sends nothing.
In every state, also where the decode word would not select the operation: the model's reading, DEDUCED, log entry 11. -/
def Obligations.NopLowChangesNothing : Prop :=
  (∀ (m : Masks) (s : State) (x : Sample), s.strobe = .idle → crx m x = false →
    takeSample m x s = exec .nopLow s) ∧
  ∀ s : State, exec .nopLow s = .next { s with out := OutRec.none }

/-- R71: CRX high with `STROBE` `Idle` runs `RISE`, which sets `STROBE` and nothing else.
In every state, also where the decode word would not select the operation: the model's reading, DEDUCED, log entry 11. -/
def Obligations.RiseSetsStrobe : Prop :=
  (∀ (m : Masks) (s : State) (x : Sample), s.strobe = .idle → crx m x = true →
    takeSample m x s = exec .rise s) ∧
  ∀ s : State, exec .rise s = .next { s with strobe := .asserted, out := OutRec.none }

/-- R72: CRX high with `STROBE` `Asserted` runs `NOP_HIGH`, which writes no register and sends nothing.
In every state, also where the decode word would not select the operation: the model's reading, DEDUCED, log entry 11. -/
def Obligations.NopHighChangesNothing : Prop :=
  (∀ (m : Masks) (s : State) (x : Sample), s.strobe = .asserted → crx m x = true →
    takeSample m x s = exec .nopHigh s) ∧
  ∀ s : State, exec .nopHigh s = .next { s with out := OutRec.none }

/-- R73: CRX low with `STROBE` `Asserted` runs `FALL` on the DRX bit d of the same Sample: `STROBE` becomes `Idle`, and
with acc' = (2 ACC + d) mod 256 and cnt' = CNT + 1 it is `SHIFT` for cnt' at most 7 and `COMPLETE` otherwise.
In every state, also where the decode word would not select the operation: the model's reading, DEDUCED, log entry 11. -/
def Obligations.FallSamplesOneBit : Prop :=
  (∀ (m : Masks) (s : State) (x : Sample), s.strobe = .asserted → crx m x = false →
    takeSample m x s = exec (.fall (drx m x)) s) ∧
  (∀ (s : State) (d : Bool) (c : Count), s.cnt.val + 1 = c.val →
    exec (.fall d) s =
      exec (.shift (BitVec.ofNat 8 ((2 * s.acc.toNat + d.toNat) % 256)) c) { s with strobe := .idle } ∧
    exec (.fall d) s = .next { s with
      strobe := .idle
      acc := BitVec.ofNat 8 ((2 * s.acc.toNat + d.toNat) % 256)
      cnt := c
      out := OutRec.none }) ∧
  (∀ (s : State) (d : Bool), s.cnt = 7 →
    exec (.fall d) s =
      exec (.complete (BitVec.ofNat 8 ((2 * s.acc.toNat + d.toNat) % 256))) { s with strobe := .idle }) ∧
  ∀ (s : State) (d : Bool), ∃ t, exec (.fall d) s = .next t ∧ t.strobe = .idle

/-! ## Family 2, the byte assembler -/

/-- R80: `SHIFT` stores acc' and cnt' and sends nothing; a falling edge runs it for every stored count below 7.
In every state, also where the decode word would not select the operation: the model's reading, DEDUCED, log entry 11; this
includes cnt' = 0, which R80's operands 1 to 7 leave out. -/
def Obligations.ShiftStoresOneMoreBit : Prop :=
  (∀ (s : State) (a : Byte) (c : Count),
    exec (.shift a c) s = .next { s with acc := a, cnt := c, out := OutRec.none }) ∧
  ∀ (s : State) (d : Bool) (c : Count), s.cnt.val + 1 = c.val →
    exec (.fall d) s = exec (.shift (shiftIn s.acc d) c) (s.setStrobe .idle)

/-- R81: `COMPLETE` runs exactly one of the five byte-level operations, and then `ACC`, `CNT` are 0, 0 after an accepted
byte and b & 0x7F, 7 after a rejected one.
In every state, also where the decode word would not select the operation: the model's reading, DEDUCED, log entry 11. -/
def Obligations.CompleteDispatchesAndRestarts : Prop :=
  ∀ (s : State) (b : Byte),
    exec (.complete b) s =
      (if s.sync = .synchronized then
        if s.cur = 0 then (if syncMatch b then exec (.confirm b) s else exec (.lose b) s)
        else exec (.payload b) s
      else if syncMatch b then exec (.acquire b) s else exec (.slide b) s) ∧
    ∃ t, exec (.complete b) s = .next t ∧ t.strobe = s.strobe ∧ t.input = s.input ∧
      (if (s.sync = .synchronized ∧ s.cur ≠ 0) ∨ IsSyncValue b then t.acc = 0 ∧ t.cnt = 0
       else t.acc.toNat = b.toNat % 128 ∧ t.cnt = 7)

/-! ## Family 3, the sync and packet tracker -/

/-- R90: `PAYLOAD` runs while `Synchronized` with the cursor not 0, whatever the byte is; it emits the byte and advances
the cursor, 192 becoming 0.
In every state, also where the decode word would not select the operation: the model's reading, DEDUCED, log entry 11. -/
def Obligations.PayloadPassesTheByteThrough : Prop :=
  (∀ (s : State) (b : Byte), s.sync = .synchronized → s.cur ≠ 0 →
    exec (.complete b) s = exec (.payload b) s) ∧
  ∀ (s : State) (b : Byte) (c : Cursor), c.val = (if s.cur.val + 1 = 192 then 0 else s.cur.val + 1) →
    exec (.payload b) s = .next { s with
      acc := 0
      cnt := 0
      cur := c
      out := { outValid := true, outByte := b, evAcq := false, evLost := false, evRej := false }
      bytes := s.bytes ++ [b] }

/-- R91: `ACQUIRE` runs on a sync value while `Unsynchronized`, whatever the cursor is.
In every state, also where the decode word would not select the operation: the model's reading, DEDUCED, log entry 11; this
includes a `Synchronized` state and a byte that is no sync value. -/
def Obligations.AcquireGainsSync : Prop :=
  (∀ (s : State) (b : Byte), s.sync = .unsynchronized → b = 0x47 ∨ b = 0x64 →
    exec (.complete b) s = exec (.acquire b) s) ∧
  ∀ (s : State) (b : Byte), exec (.acquire b) s = .next { s with
    acc := 0
    cnt := 0
    sync := .synchronized
    cur := 1
    out := { outValid := true, outByte := b, evAcq := true, evLost := false, evRej := false }
    bytes := s.bytes ++ [b]
    events := s.events ++ [.syncAcquired] }

/-- R92: `CONFIRM` runs on a sync value while `Synchronized` with the cursor 0, and sends no event.
In every state, also where the decode word would not select the operation: the model's reading, DEDUCED, log entry 11. -/
def Obligations.ConfirmKeepsSync : Prop :=
  (∀ (s : State) (b : Byte), s.sync = .synchronized → s.cur = 0 → b = 0x47 ∨ b = 0x64 →
    exec (.complete b) s = exec (.confirm b) s) ∧
  ∀ (s : State) (b : Byte), exec (.confirm b) s = .next { s with
    acc := 0
    cnt := 0
    sync := .synchronized
    cur := 1
    out := { outValid := true, outByte := b, evAcq := false, evLost := false, evRej := false }
    bytes := s.bytes ++ [b] }

/-- R93: `LOSE` runs on any other byte while `Synchronized` with the cursor 0: both events, the low seven bits kept, the
count 7, the cursor unchanged, nothing emitted.
In every state, also where the decode word would not select the operation: the model's reading, DEDUCED, log entry 11.
The order of the two events in the stream is the spec's D11 (log entry 7). -/
def Obligations.LoseDropsOneBit : Prop :=
  (∀ (s : State) (b : Byte), s.sync = .synchronized → s.cur = 0 → b ≠ 0x47 → b ≠ 0x64 →
    exec (.complete b) s = exec (.lose b) s) ∧
  ∀ (s : State) (b : Byte), exec (.lose b) s = .next { s with
    acc := BitVec.ofNat 8 (b.toNat % 128)
    cnt := 7
    sync := .unsynchronized
    out := { outValid := false, outByte := 0, evAcq := false, evLost := true, evRej := true }
    events := s.events ++ [.syncLost, .byteRejected] }

/-- R94: `SLIDE` runs on any other byte while `Unsynchronized`, whatever the cursor is.
In every state, also where the decode word would not select the operation: the model's reading, DEDUCED, log entry 11. -/
def Obligations.SlideDropsOneBit : Prop :=
  (∀ (s : State) (b : Byte), s.sync = .unsynchronized → b ≠ 0x47 → b ≠ 0x64 →
    exec (.complete b) s = exec (.slide b) s) ∧
  ∀ (s : State) (b : Byte), exec (.slide b) s = .next { s with
    acc := BitVec.ofNat 8 (b.toNat % 128)
    cnt := 7
    sync := .unsynchronized
    out := { outValid := false, outByte := 0, evAcq := false, evLost := false, evRej := true }
    events := s.events ++ [.byteRejected] }

/-! ## Frames -/

/-- R10, R70 to R72, R80: what the operations that send nothing leave unchanged. `NOP_LOW` and `NOP_HIGH` write no register,
`RISE` writes `STROBE` alone, `SHIFT` writes `ACC` and `CNT` alone.
In every state, also where the decode word would not select the operation: the model's reading, DEDUCED, log entry 11. -/
def Obligations.FrameOfQuietOperations : Prop :=
  (∀ (i : Instr) (s t : State), i = .nopLow ∨ i = .rise ∨ i = .nopHigh ∨ (∃ a c, i = .shift a c) →
    exec i s = .next t →
    t.sync = s.sync ∧ t.cur = s.cur ∧ t.bytes = s.bytes ∧ t.events = s.events ∧ t.input = s.input ∧
    t.out = OutRec.none) ∧
  (∀ (i : Instr) (s t : State), i = .nopLow ∨ i = .rise ∨ i = .nopHigh → exec i s = .next t →
    t.acc = s.acc ∧ t.cnt = s.cnt) ∧
  ∀ (i : Instr) (s t : State), i = .nopLow ∨ i = .nopHigh ∨ (∃ a c, i = .shift a c) → exec i s = .next t →
    t.strobe = s.strobe

/-- R10, R90 to R94: what the byte-level operations leave unchanged. None writes `STROBE` or the pending input; `PAYLOAD` does not
write `SYNC`; `LOSE` and `SLIDE` do not write `CUR` or the byte stream; `PAYLOAD` and `CONFIRM` do not write the event
stream; and the emitting ones append exactly their byte.
In every state, also where the decode word would not select the operation: the model's reading, DEDUCED, log entry 11. -/
def Obligations.FrameOfTrackerOperations : Prop :=
  ∀ (b : Byte) (s t : State),
    ((exec (.payload b) s = .next t ∨ exec (.acquire b) s = .next t ∨ exec (.confirm b) s = .next t ∨
      exec (.lose b) s = .next t ∨ exec (.slide b) s = .next t) → t.strobe = s.strobe ∧ t.input = s.input) ∧
    (exec (.payload b) s = .next t → t.sync = s.sync) ∧
    ((exec (.lose b) s = .next t ∨ exec (.slide b) s = .next t) → t.cur = s.cur ∧ t.bytes = s.bytes) ∧
    ((exec (.payload b) s = .next t ∨ exec (.confirm b) s = .next t) → t.events = s.events) ∧
    ((exec (.payload b) s = .next t ∨ exec (.acquire b) s = .next t ∨ exec (.confirm b) s = .next t) →
      t.bytes = s.bytes ++ [b])

/-- R10, R73, R81: what the two enclosing operations leave unchanged. `FALL` writes `SYNC`, `CUR` and the streams only when the
eighth bit arrives; `COMPLETE` never writes `STROBE`; neither touches the pending input or removes what was sent, and each
adds at most one byte and two events.
In every state, also where the decode word would not select the operation: the model's reading, DEDUCED, log entry 11. -/
def Obligations.FrameOfFallAndComplete : Prop :=
  (∀ (d : Bool) (s t : State), exec (.fall d) s = .next t →
    t.input = s.input ∧
    (s.cnt ≠ 7 → t.sync = s.sync ∧ t.cur = s.cur ∧ t.bytes = s.bytes ∧ t.events = s.events)) ∧
  (∀ (b : Byte) (s t : State), exec (.complete b) s = .next t → t.strobe = s.strobe ∧ t.input = s.input) ∧
  ∀ (d : Bool) (b : Byte) (s t : State), exec (.fall d) s = .next t ∨ exec (.complete b) s = .next t →
    ∃ bs es, t.bytes = s.bytes ++ bs ∧ t.events = s.events ++ es ∧ bs.length ≤ 1 ∧ es.length ≤ 2

/-! ## Laws of the arithmetic -/

/-- R31, for a byte begun at `CNT` 0 and each bit in its shortest spelling: eight bits d1 to d8 complete the byte
d1*128 + ... + d8. The whole effect of the sixteen Samples is that of `COMPLETE` on it, whose meaning is read in the
starting state: the model's reading, DEDUCED, log entry 11. (A byte begun by a rejection is in
`CompletedByteIsTheLatestEightBits`.) -/
def Obligations.BitsEnterMostSignificantFirst : Prop :=
  ∀ (s : State) (d1 d2 d3 d4 d5 d6 d7 d8 : Bool), s.strobe = .idle → s.cnt = 0 →
    ∃ t rs, feed Config.masks (bitsStream [d1, d2, d3, d4, d5, d6, d7, d8]) s = .next (t, rs) ∧
      exec (.complete (BitVec.ofNat 8 (d1.toNat * 128 + d2.toNat * 64 + d3.toNat * 32 + d4.toNat * 16 +
        d5.toNat * 8 + d6.toNat * 4 + d7.toNat * 2 + d8.toNat))) s = .next t

/-- R82: the shift as arithmetic and bit by bit; and no set bit is lost where `ACC < 2^CNT` (which the spec derives from
R21). -/
def Obligations.ShiftIsDoublingModulo256 : Prop :=
  (∀ (a : Byte) (d : Bool), (shiftIn a d).toNat = (2 * a.toNat + d.toNat) % 256 ∧
    (shiftIn a d).getLsbD 0 = d ∧ ∀ i < 7, (shiftIn a d).getLsbD (i + 1) = a.getLsbD i) ∧
  ∀ (s : State) (d : Bool), s.Inv → (shiftIn s.acc d).toNat = 2 * s.acc.toNat + d.toNat

/-- R97: the cursor advance is (CUR + 1) mod 192. -/
def Obligations.CursorAdvancesModulo192 : Prop :=
  ∀ c : Cursor, (nextCursor c).val = (c.val + 1) % 192

/-! ## Events and outputs -/

/-- R131: `SyncAcquired` is sent exactly when `SYNC` goes from `Unsynchronized` to `Synchronized`, only with a sync value,
and not by `CONFIRM`. -/
def Obligations.SyncAcquiredExactlyOnGain : Prop :=
  (∀ (m : Masks) (x : Sample) (s t : State), takeSample m x s = .next t →
    (t.out.evAcq = true ↔ s.sync = .unsynchronized ∧ t.sync = .synchronized) ∧
    (t.out.evAcq = true → t.out.outValid = true ∧ IsSyncValue t.out.outByte)) ∧
  ∀ (b : Byte) (s t : State), exec (.confirm b) s = .next t → t.out.evAcq = false

/-- R132: `SyncLost` is sent exactly when `SYNC` goes from `Synchronized` to `Unsynchronized`, not by `SLIDE`, and (as the
spec derives) only at a packet boundary. -/
def Obligations.SyncLostExactlyOnLoss : Prop :=
  (∀ (m : Masks) (x : Sample) (s t : State), takeSample m x s = .next t →
    (t.out.evLost = true ↔ s.sync = .synchronized ∧ t.sync = .unsynchronized) ∧
    (t.out.evLost = true → s.cur = 0 ∧ t.out.evRej = true)) ∧
  ∀ (b : Byte) (s t : State), exec (.slide b) s = .next t → t.out.evLost = false

/-- R133: `ByteRejected` is sent exactly for a byte that completes, is tested against the sync values and fails; one event
each. -/
def Obligations.ByteRejectedExactlyOnFailedTest : Prop :=
  ∀ (m : Masks) (x : Sample) (s t : State), takeSample m x s = .next t →
    (t.out.evRej = true ↔
      s.strobe = .asserted ∧ crx m x = false ∧ s.cnt = 7 ∧ (s.sync = .unsynchronized ∨ s.cur = 0) ∧
      ¬ IsSyncValue (shiftIn s.acc (drx m x))) ∧
    t.events.count .byteRejected = s.events.count .byteRejected + t.out.evRej.toNat

/-- R98: while `Unsynchronized` every completed byte is tested, whatever the cursor is: a sync value is emitted with
`SyncAcquired`, and any other byte is rejected with `ByteRejected` and nothing emitted. So the only byte that can be emitted
is a sync value, as byte 0 of a packet; and the cursor is not consulted. -/
def Obligations.HuntingEmitsOnlySyncValues : Prop :=
  (∀ (m : Masks) (x : Sample) (s : State) (b : Byte), s.sync = .unsynchronized → s.strobe = .asserted →
    crx m x = false → s.cnt = 7 → b = shiftIn s.acc (drx m x) →
    ∃ t, takeSample m x s = .next t ∧
      (IsSyncValue b → t.out.outValid = true ∧ t.out.outByte = b ∧ t.out.evAcq = true ∧ t.out.evRej = false ∧
        t.bytes = s.bytes ++ [b]) ∧
      (¬ IsSyncValue b → t.out.outValid = false ∧ t.out.evAcq = false ∧ t.out.evRej = true ∧ t.bytes = s.bytes)) ∧
  (∀ (m : Masks) (x : Sample) (s t : State), s.sync = .unsynchronized → takeSample m x s = .next t →
    t.bytes = s.bytes ∨ ∃ b, IsSyncValue b ∧ t.bytes = s.bytes ++ [b] ∧ t.cur = 1 ∧ t.sync = .synchronized) ∧
  ∀ (m : Masks) (x : Sample) (c : Cursor) (s t u : State), s.sync = .unsynchronized →
    takeSample m x s = .next t → takeSample m x (s.setCur c) = .next u →
    u.out = t.out ∧ u.bytes = t.bytes ∧ u.events = t.events ∧ u.sync = t.sync ∧ u.acc = t.acc ∧ u.cnt = t.cnt ∧
    u.strobe = t.strobe

/-- R11, R74: after a Sample `STROBE` is the CRX level of that Sample. -/
def Obligations.StrobeFollowsCrx : Prop :=
  ∀ (m : Masks) (x : Sample) (s : State), ∃ t, takeSample m x s = .next t ∧
    (t.strobe = .asserted ↔ crx m x = true)

/-- R36: the same Sample (or any with the same CRX level) at once again changes no register and sends nothing. -/
def Obligations.RepeatedSampleDoesNothing : Prop :=
  ∀ (m : Masks) (x y : Sample) (s t : State), crx m y = crx m x → takeSample m x s = .next t →
    takeSample m y t = .next { t with out := OutRec.none }

/-- R51, R56, R59: the bits of a Sample outside the two masks are ignored by the step. -/
def Obligations.UnusedSampleBitsAreIgnored : Prop :=
  ∀ (s : State) (x : Sample) (r v : Bool) (rest : List Cycle),
    step { s with input := ⟨r, v, x⟩ :: rest } = step { s with input := ⟨r, v, x &&& 0x03⟩ :: rest }

/-- R34, R57: after any step from any state the output record is one of the kinds that can occur, and the event bits are
0, 1, 4 or 6. -/
def Obligations.OnlySixKindsOfRecord : Prop :=
  ∀ s t : State, step s = .next t →
    t.out.Legal ∧ (t.out.ev = 0b000 ∨ t.out.ev = 0b001 ∨ t.out.ev = 0b100 ∨ t.out.ev = 0b110)

/-! ## The whole machine -/

/-- R21 lines 3 and 4, R111: every step keeps `ACC < 2^CNT` and `CUR = 0` while `Unsynchronized`, whatever the input
signals are. -/
def Obligations.StepKeepsInvariant : Prop :=
  ∀ s t : State, s.Inv → step s = .next t → t.Inv

/-- R42, R56, R110: the step is total: no state and no Sample stops the decoder. -/
def Obligations.StepAlwaysAnswersNext : Prop :=
  ∀ s : State, ∃ t, step s = .next t

/-- R33, R34, R38: a step adds to the two output streams exactly what its record says, at the end, and changes nothing
already sent. The order of two events of one step is the spec's D11 (log entry 7). -/
def Obligations.StreamsGrowByTheRecord : Prop :=
  ∀ s t : State, step s = .next t →
    t.bytes = s.bytes ++ t.out.byteList ∧ t.events = s.events ++ t.out.eventList

/-- R10, R23, R114: the decoder never reads its output back: two states that differ only in the streams sent and the
latest record step to the same registers and the same record. And the Samples are a parameter of the decoder, not its
state: fed the same Samples, two states with the same five registers end with the same five registers and send the same
records, whatever cycles are pending and whatever was sent before, and the pending cycles are left as they were. -/
def Obligations.StepReadsOnlyRegistersAndInput : Prop :=
  (∀ s s' t t' : State, State.SameInputs s s' → step s = .next t → step s' = .next t' →
    State.SameInputs t t' ∧ t.out = t'.out) ∧
  ∀ (m : Masks) (xs : List Sample) (s s' t t' : State) (rs rs' : List OutRec), s.toDecoder = s'.toDecoder →
    feed m xs s = .next (t, rs) → feed m xs s' = .next (t', rs') →
    t.toDecoder = t'.toDecoder ∧ rs = rs' ∧ t.input = s.input ∧ t'.input = s'.input

/-! ## Feeding -/

/-- R112: `feed` of the empty chunk returns the state and no record; otherwise it applies the step to the first Sample and
then feeds the rest to the state that leaves, the records in order. It answers for every chunk and state, with one record
per Sample. -/
def Obligations.FeedAnswersForEveryChunk : Prop :=
  (∀ (m : Masks) (s : State), feed m [] s = .next (s, [])) ∧
  (∀ (m : Masks) (x : Sample) (xs : List Sample) (s : State), ∃ t u rs, takeSample m x s = .next t ∧
    feed m xs t = .next (u, rs) ∧ feed m (x :: xs) s = .next (u, t.out :: rs)) ∧
  ∀ (m : Masks) (xs : List Sample) (s : State), ∃ t rs, feed m xs s = .next (t, rs) ∧ rs.length = xs.length

/-- R113: chunk boundaries do not matter, for the last state and for the records. -/
def Obligations.ChunkBoundariesDoNotMatter : Prop :=
  ∀ (m : Masks) (xs ys : List Sample) (s t u : State) (rs qs : List OutRec),
    feed m xs s = .next (t, rs) → feed m ys t = .next (u, qs) →
    feed m (xs ++ ys) s = .next (u, rs ++ qs)

/-- R112, R153: a `feed` call is a burst of Sample presentations: running the machine for one cycle per Sample reaches the
state that `feed` gives, with the rest of the pending cycles untouched.
The queue of pending cycles is the model's choice (log entry 3). -/
def Obligations.FeedIsABurstOfSteps : Prop :=
  ∀ (xs : List Sample) (rest : List Cycle) (s t : State) (rs : List OutRec),
    feed Config.masks xs s = .next (t, rs) →
    core.run xs.length ({ s with input := xs.map Cycle.present ++ rest } : State) =
      .next ({ t with input := rest } : State)

/-- R59, R74: decoding depends on a Sample sequence only through the bits it delivers: oversampling, rests and DRX away from
the falling edge change nothing. -/
def Obligations.OnlyRecoveredBitsMatter : Prop :=
  ∀ (m : Masks) (xs ys : List Sample) (s t u : State) (rs qs : List OutRec),
    recoveredBits m s.strobe xs = recoveredBits m s.strobe ys →
    feed m xs s = .next (t, rs) → feed m ys s = .next (u, qs) → State.SameDecoding t u

/-- R58, R59: a correctly encoded stream delivers exactly its data bits, and `BITn d, h, l` is a correct encoding of d for
all h and l from 1 on. -/
def Obligations.EncodedStreamsDeliverTheirBits : Prop :=
  (∀ (m : Masks) (ds : List Bool) (xs : List Sample), Encodes m ds xs → recoveredBits m .idle xs = ds) ∧
  ∀ (d : Bool) (h l : Nat), 1 ≤ h → 1 ≤ l → Encodes Config.masks [d] (bitNStream d h l)

/-- R85: from reset, `ACC` holds the latest `CNT` recovered bits, read as a binary number. -/
def Obligations.AccumulatorHoldsTheLatestBits : Prop :=
  ∀ (m : Masks) (xs : List Sample) (t : State) (rs : List OutRec), feed m xs State.reset = .next (t, rs) →
    t.cnt.val ≤ (recoveredBits m .idle xs).length ∧
    t.acc.toNat = bitsValue (latestBits t.cnt.val (recoveredBits m .idle xs))

/-- R85: from reset, every completed byte is the latest eight recovered bits, whichever way the previous byte ended: an
emitted byte is that value, and a rejected one leaves its low seven bits. -/
def Obligations.CompletedByteIsTheLatestEightBits : Prop :=
  ∀ (m : Masks) (xs : List Sample) (x : Sample) (s t : State) (rs : List OutRec),
    feed m xs State.reset = .next (s, rs) → takeSample m x s = .next t →
    (t.out.outValid = true ∨ t.out.evRej = true) →
    8 ≤ (recoveredBits m .idle (xs ++ [x])).length ∧
    (t.out.outValid = true →
      t.out.outByte.toNat = bitsValue (latestBits 8 (recoveredBits m .idle (xs ++ [x])))) ∧
    (t.out.evRej = true →
      t.acc.toNat = bitsValue (latestBits 8 (recoveredBits m .idle (xs ++ [x]))) % 128)

/-- R99 lines 1 and 6, R37: inside a packet every byte up to the packet's end is emitted unchanged and in order, without
an event, and the cursor counts them. -/
def Obligations.PayloadRunIsEmittedUnchanged : Prop :=
  ∀ (s : State) (vs : List Byte), s.strobe = .idle → s.cnt = 0 → s.sync = .synchronized → s.cur ≠ 0 →
    vs ≠ [] → s.cur.val + vs.length ≤ 192 →
    ∃ t rs, feed Config.masks (packetStream vs) s = .next (t, rs) ∧
      t.bytes = s.bytes ++ vs ∧ t.events = s.events ∧ t.strobe = .idle ∧ t.acc = 0 ∧ t.cnt = 0 ∧
      t.sync = .synchronized ∧ t.cur.val = (s.cur.val + vs.length) % 192

/-- R118 line 1 (the source's property "Idempotent resync"): from reset, one complete clean packet in any correct encoding
is emitted byte for byte, with the single event `SyncAcquired`. -/
def Obligations.OneCleanPacketFromReset : Prop :=
  ∀ (v0 : Byte) (vs : List Byte) (xs : List Sample), IsSyncValue v0 → vs.length = 191 →
    Encodes Config.masks ((v0 :: vs).flatMap byteBits) xs →
    ∃ t rs, feed Config.masks xs State.reset = .next (t, rs) ∧
      t.bytes = v0 :: vs ∧ t.events = [.syncAcquired] ∧ t.strobe = .idle ∧ t.acc = 0 ∧ t.cnt = 0 ∧
      t.sync = .synchronized ∧ t.cur = 0

/-- R99 line 4: one extra bit p inside a packet costs one `LOSE` and one `ACQUIRE`: the rest of the packet comes out
slipped by one bit, one bit is dropped at the boundary, and the next packet's sync byte is decoded whole.
The order of `SyncLost` and `ByteRejected` in the stream is the spec's D11 (log entry 7). -/
def Obligations.OneExtraBitIsRecovered : Prop :=
  ∀ (s : State) (p : Bool) (vs : List Byte) (sb : Byte), s.strobe = .idle → s.cnt = 0 →
    s.sync = .synchronized → s.cur ≠ 0 → s.cur.val + vs.length = 192 → IsSyncValue sb →
    ∃ t rs, feed Config.masks (glitchStream p ++ packetStream vs ++ byteStream sb) s = .next (t, rs) ∧
      t.bytes = s.bytes ++ slippedBytes p vs ++ [sb] ∧
      t.events = s.events ++ [.syncLost, .byteRejected, .syncAcquired] ∧
      t.strobe = .idle ∧ t.acc = 0 ∧ t.cnt = 0 ∧ t.sync = .synchronized ∧ t.cur = 1

/-- R99 line 5: with one bit of a packet missing (seven bits ds in place of a byte), the boundary test meets the sync byte
shifted by one bit, with the first bit q after it, and loses sync; the bytes emitted on the way fill the packet.
The order of `SyncLost` and `ByteRejected` in the stream is the spec's D11 (log entry 7). -/
def Obligations.OneMissingBitLosesSync : Prop :=
  ∀ (s : State) (ds : List Bool) (vs : List Byte) (sb : Byte) (q : Bool), s.strobe = .idle → s.cnt = 0 →
    s.sync = .synchronized → s.cur ≠ 0 → ds.length = 7 → s.cur.val + 1 + vs.length = 192 → IsSyncValue sb →
    ∃ t rs, feed Config.masks (bitsStream ds ++ packetStream vs ++ byteStream sb ++ bitStream q) s
        = .next (t, rs) ∧
      t.bytes.length = s.bytes.length + vs.length + 1 ∧
      t.events = s.events ++ [.syncLost, .byteRejected] ∧
      t.strobe = .idle ∧ t.acc.toNat = (2 * sb.toNat + q.toNat) % 128 ∧ t.cnt = 7 ∧
      t.sync = .unsynchronized ∧ t.cur = 0

/-- R119 line 3: from reset, the bytes emitted are at most the recovered bits divided by 8. -/
def Obligations.EmittedBytesNeedEightBitsEach : Prop :=
  ∀ (m : Masks) (xs : List Sample) (t : State) (rs : List OutRec), feed m xs State.reset = .next (t, rs) →
    t.bytes.length ≤ (recoveredBits m .idle xs).length / 8

/-- R119 line 4: from reset, `SyncAcquired` and `SyncLost` alternate, `SyncAcquired` first, and the mode is the latest
one's. -/
def Obligations.SyncEventsAlternate : Prop :=
  ∀ (m : Masks) (xs : List Sample) (t : State) (rs : List OutRec), feed m xs State.reset = .next (t, rs) →
    alternates true (syncEvents t.events) = true ∧
    (t.sync = .synchronized ↔ (syncEvents t.events).getLast? = some .syncAcquired)

/-- R119 lines 1 and 2: from reset, the first emitted byte is the first 8-bit window of the recovered bits that equals a
sync value, and no byte is emitted while there is none. -/
def Obligations.FirstByteIsTheFirstSyncWindow : Prop :=
  ∀ (m : Masks) (xs : List Sample) (t : State) (rs : List OutRec), feed m xs State.reset = .next (t, rs) →
    t.bytes.head? = firstSyncWindow (recoveredBits m .idle xs)

/-- R119 line 5, R15: from reset, the number of emitted bytes modulo 192 is the cursor, and 0 while `Unsynchronized`. -/
def Obligations.EmittedByteCountIsCursorModulo192 : Prop :=
  ∀ (m : Masks) (xs : List Sample) (t : State) (rs : List OutRec), feed m xs State.reset = .next (t, rs) →
    t.bytes.length % 192 = t.cur.val ∧ (t.sync = .unsynchronized → t.bytes.length % 192 = 0)

/-- R21 line 5, R119 line 1: from reset, nothing is sent before eight bits have arrived; and while `Unsynchronized`, once a
byte has completed, `CNT` is 7, so the very next bit completes another. -/
def Obligations.HuntingTestsEveryBit : Prop :=
  ∀ (m : Masks) (xs : List Sample) (t : State) (rs : List OutRec), feed m xs State.reset = .next (t, rs) →
    ((recoveredBits m .idle xs).length < 8 → t.bytes = [] ∧ t.events = []) ∧
    (8 ≤ (recoveredBits m .idle xs).length → t.sync = .unsynchronized → t.cnt = 7)

/-! ## The software wrapper and construction -/

/-- R137 (the spec's D15): the wrapper rejects a null buffer and a size out of range before any Sample, with no next state;
otherwise it is `feed` over the named Samples, and the empty chunk is legal. That a size beyond the buffer is out of
range is the model's choice (log entry 9). -/
def Obligations.MalformedFeedCallsAreRejected : Prop :=
  (∀ (m : Masks) (n : Int) (s : State), feedCall m none n s = .fault .invalidArgument) ∧
  (∀ (m : Masks) (xs : List Sample) (n : Int) (s : State), n < 0 ∨ xs.length < n →
    feedCall m (some xs) n s = .fault .invalidArgument) ∧
  ∀ (m : Masks) (xs : List Sample) (n : Nat) (s : State), n ≤ xs.length →
    feedCall m (some xs) n s = feed m (xs.take n) s

/-- R19 (the spec's D3 and U1): construction is refused unless each mask has exactly one of the eight bits set and the two
differ; otherwise it gives the reset state (R150). -/
def Obligations.ConstructionNeedsOneHotMasks : Prop :=
  ∀ m : Masks,
    ((∃ i < 8, ∃ j < 8, i ≠ j ∧ m.drx = BitVec.twoPow 8 i ∧ m.crx = BitVec.twoPow 8 j) →
      construct m = .next State.reset) ∧
    ((¬ ∃ i < 8, ∃ j < 8, i ≠ j ∧ m.drx = BitVec.twoPow 8 i ∧ m.crx = BitVec.twoPow 8 j) →
      construct m = .refused .illegalMasks)
end

