-- ==== Sys2Proof/Laws/Operands.lean ====
section
/-! SUPPORT. What the operand and flag functions compute, each said once. -/

namespace Sys2Proof.Machine

theorem syncMatch_iff (b : Byte) : syncMatch b = true ↔ IsSyncValue b := by
  simp [syncMatch, IsSyncValue]

theorem syncMatch_eq_false_iff (b : Byte) : syncMatch b = false ↔ ¬ IsSyncValue b := by
  rw [← syncMatch_iff, Bool.not_eq_true]

theorem nextCursor_wraps (c : Cursor) (h : c.val = 191) : nextCursor c = 0 := by
  obtain rfl : c = 191 := Fin.ext h
  rfl

theorem nextCursor_succ (c : Cursor) (h : c.val < 191) : (nextCursor c).val = c.val + 1 := by
  have hne : ¬ c.val + 1 = Config.packetLen := by unfold Config.packetLen; omega
  simp [nextCursor, hne]

@[simp] theorem Strobe.bit_idle : Strobe.idle.bit = false := rfl

@[simp] theorem Strobe.bit_asserted : Strobe.asserted.bit = true := rfl

@[simp] theorem Sync.bit_unsynchronized : Sync.unsynchronized.bit = false := rfl

@[simp] theorem Sync.bit_synchronized : Sync.synchronized.bit = true := rfl

@[simp] theorem strobeOfLevel_true : strobeOfLevel true = .asserted := rfl

@[simp] theorem strobeOfLevel_false : strobeOfLevel false = .idle := rfl

/-- Which operation a Sample selects, said on `STROBE` and the two levels (30_encoding.md R54). -/
theorem operation_eq (m : Masks) (s : State) (x : Sample) :
    s.operation m x =
      match s.strobe, crx m x with
      | .idle, false => .nopLow
      | .idle, true => .rise
      | .asserted, true => .nopHigh
      | .asserted, false => .fall (drx m x) := by
  unfold State.operation State.sampleWord
  cases s.strobe <;> cases crx m x <;> cases drx m x <;> rfl

end Sys2Proof.Machine
end

