-- ==== Sys2Proof/Laws/PerInstr.lean ====
section
/-! SUPPORT. Statements about every operation, one lemma per constructor.
`EncodeMatchesTable`: the decode word the encoder writes for a well-formed operation is of its level, and the one row of
spec/opcode_table.json it matches is the operation's own (30_encoding.md R54, R55). -/

namespace Sys2Proof.Laws.EncodeMatchesTable

def Statement (i : Instr) : Prop :=
  i.wellFormed = true → (encode i).level = i.level ∧ matchingRows (encode i) = [i.mnemonic]

theorem nopLow : Statement .nopLow := fun _ => ⟨rfl, by decide⟩

theorem rise : Statement .rise := fun _ => ⟨rfl, by decide⟩

theorem nopHigh : Statement .nopHigh := fun _ => ⟨rfl, by decide⟩

theorem fall (d : Bool) : Statement (.fall d) := fun _ => ⟨rfl, by cases d <;> decide⟩

theorem shift (acc : Byte) (cnt : Count) : Statement (.shift acc cnt) := by
  have rows : ∀ c : Count, rowsAt .bit (BitVec.ofNat 4 c.val) = ["SHIFT"] := by decide
  exact fun _ => ⟨rfl, rows cnt⟩

theorem complete (b : Byte) : Statement (.complete b) := by
  have rows : rowsAt .bit 8 = ["COMPLETE"] := by decide
  exact fun _ => ⟨rfl, rows⟩

theorem payload (b : Byte) : Statement (.payload b) := by
  have rows : ∀ m : Bool, rowsAt .byte ((byteWord true false m).setWidth 4) = ["PAYLOAD"] := by decide
  exact fun _ => ⟨rfl, rows (syncMatch b)⟩

theorem acquire (b : Byte) : Statement (.acquire b) := by
  have rows : rowsAt .byte ((byteWord false false true).setWidth 4) = ["ACQUIRE"] := by decide
  exact fun _ => ⟨rfl, rows⟩

theorem confirm (b : Byte) : Statement (.confirm b) := by
  have rows : rowsAt .byte ((byteWord true true true).setWidth 4) = ["CONFIRM"] := by decide
  exact fun _ => ⟨rfl, rows⟩

theorem lose (b : Byte) : Statement (.lose b) := by
  have rows : rowsAt .byte ((byteWord true true false).setWidth 4) = ["LOSE"] := by decide
  exact fun _ => ⟨rfl, rows⟩

theorem slide (b : Byte) : Statement (.slide b) := by
  have rows : rowsAt .byte ((byteWord false false false).setWidth 4) = ["SLIDE"] := by decide
  exact fun _ => ⟨rfl, rows⟩

end Sys2Proof.Laws.EncodeMatchesTable
end

