-- ==== Sys2Proof/Laws/State.lean ====
section
/-! SUPPORT. What each named operation does to each field of the state, one lemma per field and operation. -/

namespace Sys2Proof.Machine

/-! `State.setStrobe` -/

@[simp] theorem State.setStrobe_strobe (s : State) (v : Strobe) : (s.setStrobe v).strobe = v := rfl

@[simp] theorem State.setStrobe_acc (s : State) (v : Strobe) : (s.setStrobe v).acc = s.acc := rfl

@[simp] theorem State.setStrobe_cnt (s : State) (v : Strobe) : (s.setStrobe v).cnt = s.cnt := rfl

@[simp] theorem State.setStrobe_sync (s : State) (v : Strobe) : (s.setStrobe v).sync = s.sync := rfl

@[simp] theorem State.setStrobe_cur (s : State) (v : Strobe) : (s.setStrobe v).cur = s.cur := rfl

@[simp] theorem State.setStrobe_input (s : State) (v : Strobe) : (s.setStrobe v).input = s.input := rfl

@[simp] theorem State.setStrobe_out (s : State) (v : Strobe) : (s.setStrobe v).out = s.out := rfl

@[simp] theorem State.setStrobe_bytes (s : State) (v : Strobe) : (s.setStrobe v).bytes = s.bytes := rfl

@[simp] theorem State.setStrobe_events (s : State) (v : Strobe) : (s.setStrobe v).events = s.events := rfl

/-! `State.setSync` -/

@[simp] theorem State.setSync_strobe (s : State) (v : Sync) : (s.setSync v).strobe = s.strobe := rfl

@[simp] theorem State.setSync_acc (s : State) (v : Sync) : (s.setSync v).acc = s.acc := rfl

@[simp] theorem State.setSync_cnt (s : State) (v : Sync) : (s.setSync v).cnt = s.cnt := rfl

@[simp] theorem State.setSync_sync (s : State) (v : Sync) : (s.setSync v).sync = v := rfl

@[simp] theorem State.setSync_cur (s : State) (v : Sync) : (s.setSync v).cur = s.cur := rfl

@[simp] theorem State.setSync_input (s : State) (v : Sync) : (s.setSync v).input = s.input := rfl

@[simp] theorem State.setSync_out (s : State) (v : Sync) : (s.setSync v).out = s.out := rfl

@[simp] theorem State.setSync_bytes (s : State) (v : Sync) : (s.setSync v).bytes = s.bytes := rfl

@[simp] theorem State.setSync_events (s : State) (v : Sync) : (s.setSync v).events = s.events := rfl

/-! `State.setCur` -/

@[simp] theorem State.setCur_strobe (s : State) (v : Cursor) : (s.setCur v).strobe = s.strobe := rfl

@[simp] theorem State.setCur_acc (s : State) (v : Cursor) : (s.setCur v).acc = s.acc := rfl

@[simp] theorem State.setCur_cnt (s : State) (v : Cursor) : (s.setCur v).cnt = s.cnt := rfl

@[simp] theorem State.setCur_sync (s : State) (v : Cursor) : (s.setCur v).sync = s.sync := rfl

@[simp] theorem State.setCur_cur (s : State) (v : Cursor) : (s.setCur v).cur = v := rfl

@[simp] theorem State.setCur_input (s : State) (v : Cursor) : (s.setCur v).input = s.input := rfl

@[simp] theorem State.setCur_out (s : State) (v : Cursor) : (s.setCur v).out = s.out := rfl

@[simp] theorem State.setCur_bytes (s : State) (v : Cursor) : (s.setCur v).bytes = s.bytes := rfl

@[simp] theorem State.setCur_events (s : State) (v : Cursor) : (s.setCur v).events = s.events := rfl

/-! `State.setAccCnt` -/

@[simp] theorem State.setAccCnt_strobe (s : State) (a : Byte) (c : Count) : (s.setAccCnt a c).strobe = s.strobe := rfl

@[simp] theorem State.setAccCnt_acc (s : State) (a : Byte) (c : Count) : (s.setAccCnt a c).acc = a := rfl

@[simp] theorem State.setAccCnt_cnt (s : State) (a : Byte) (c : Count) : (s.setAccCnt a c).cnt = c := rfl

@[simp] theorem State.setAccCnt_sync (s : State) (a : Byte) (c : Count) : (s.setAccCnt a c).sync = s.sync := rfl

@[simp] theorem State.setAccCnt_cur (s : State) (a : Byte) (c : Count) : (s.setAccCnt a c).cur = s.cur := rfl

@[simp] theorem State.setAccCnt_input (s : State) (a : Byte) (c : Count) : (s.setAccCnt a c).input = s.input := rfl

@[simp] theorem State.setAccCnt_out (s : State) (a : Byte) (c : Count) : (s.setAccCnt a c).out = s.out := rfl

@[simp] theorem State.setAccCnt_bytes (s : State) (a : Byte) (c : Count) : (s.setAccCnt a c).bytes = s.bytes := rfl

@[simp] theorem State.setAccCnt_events (s : State) (a : Byte) (c : Count) : (s.setAccCnt a c).events = s.events := rfl

/-! `State.restartByte` -/

@[simp] theorem State.restartByte_strobe (s : State) : (s.restartByte).strobe = s.strobe := rfl

@[simp] theorem State.restartByte_acc (s : State) : (s.restartByte).acc = 0 := rfl

@[simp] theorem State.restartByte_cnt (s : State) : (s.restartByte).cnt = 0 := rfl

@[simp] theorem State.restartByte_sync (s : State) : (s.restartByte).sync = s.sync := rfl

@[simp] theorem State.restartByte_cur (s : State) : (s.restartByte).cur = s.cur := rfl

@[simp] theorem State.restartByte_input (s : State) : (s.restartByte).input = s.input := rfl

@[simp] theorem State.restartByte_out (s : State) : (s.restartByte).out = s.out := rfl

@[simp] theorem State.restartByte_bytes (s : State) : (s.restartByte).bytes = s.bytes := rfl

@[simp] theorem State.restartByte_events (s : State) : (s.restartByte).events = s.events := rfl

/-! `State.dropBit` -/

@[simp] theorem State.dropBit_strobe (s : State) (b : Byte) : (s.dropBit b).strobe = s.strobe := rfl

@[simp] theorem State.dropBit_acc (s : State) (b : Byte) : (s.dropBit b).acc = b &&& 0x7F := rfl

@[simp] theorem State.dropBit_cnt (s : State) (b : Byte) : (s.dropBit b).cnt = 7 := rfl

@[simp] theorem State.dropBit_sync (s : State) (b : Byte) : (s.dropBit b).sync = s.sync := rfl

@[simp] theorem State.dropBit_cur (s : State) (b : Byte) : (s.dropBit b).cur = s.cur := rfl

@[simp] theorem State.dropBit_input (s : State) (b : Byte) : (s.dropBit b).input = s.input := rfl

@[simp] theorem State.dropBit_out (s : State) (b : Byte) : (s.dropBit b).out = s.out := rfl

@[simp] theorem State.dropBit_bytes (s : State) (b : Byte) : (s.dropBit b).bytes = s.bytes := rfl

@[simp] theorem State.dropBit_events (s : State) (b : Byte) : (s.dropBit b).events = s.events := rfl

/-! `State.clearOut` -/

@[simp] theorem State.clearOut_strobe (s : State) : (s.clearOut).strobe = s.strobe := rfl

@[simp] theorem State.clearOut_acc (s : State) : (s.clearOut).acc = s.acc := rfl

@[simp] theorem State.clearOut_cnt (s : State) : (s.clearOut).cnt = s.cnt := rfl

@[simp] theorem State.clearOut_sync (s : State) : (s.clearOut).sync = s.sync := rfl

@[simp] theorem State.clearOut_cur (s : State) : (s.clearOut).cur = s.cur := rfl

@[simp] theorem State.clearOut_input (s : State) : (s.clearOut).input = s.input := rfl

@[simp] theorem State.clearOut_out (s : State) : (s.clearOut).out = OutRec.none := rfl

@[simp] theorem State.clearOut_bytes (s : State) : (s.clearOut).bytes = s.bytes := rfl

@[simp] theorem State.clearOut_events (s : State) : (s.clearOut).events = s.events := rfl

/-! `State.emit` -/

@[simp] theorem State.emit_strobe (s : State) (b : Byte) : (s.emit b).strobe = s.strobe := rfl

@[simp] theorem State.emit_acc (s : State) (b : Byte) : (s.emit b).acc = s.acc := rfl

@[simp] theorem State.emit_cnt (s : State) (b : Byte) : (s.emit b).cnt = s.cnt := rfl

@[simp] theorem State.emit_sync (s : State) (b : Byte) : (s.emit b).sync = s.sync := rfl

@[simp] theorem State.emit_cur (s : State) (b : Byte) : (s.emit b).cur = s.cur := rfl

@[simp] theorem State.emit_input (s : State) (b : Byte) : (s.emit b).input = s.input := rfl

@[simp] theorem State.emit_out (s : State) (b : Byte) : (s.emit b).out = { s.out with outValid := true, outByte := b } := rfl

@[simp] theorem State.emit_bytes (s : State) (b : Byte) : (s.emit b).bytes = s.bytes ++ [b] := rfl

@[simp] theorem State.emit_events (s : State) (b : Byte) : (s.emit b).events = s.events := rfl

/-! `State.diag` -/

@[simp] theorem State.diag_strobe (s : State) (e : Event) : (s.diag e).strobe = s.strobe := rfl

@[simp] theorem State.diag_acc (s : State) (e : Event) : (s.diag e).acc = s.acc := rfl

@[simp] theorem State.diag_cnt (s : State) (e : Event) : (s.diag e).cnt = s.cnt := rfl

@[simp] theorem State.diag_sync (s : State) (e : Event) : (s.diag e).sync = s.sync := rfl

@[simp] theorem State.diag_cur (s : State) (e : Event) : (s.diag e).cur = s.cur := rfl

@[simp] theorem State.diag_input (s : State) (e : Event) : (s.diag e).input = s.input := rfl

@[simp] theorem State.diag_out (s : State) (e : Event) : (s.diag e).out = s.out.raise e := rfl

@[simp] theorem State.diag_bytes (s : State) (e : Event) : (s.diag e).bytes = s.bytes := rfl

@[simp] theorem State.diag_events (s : State) (e : Event) : (s.diag e).events = s.events ++ [e] := rfl

/-! `State.applyReset` -/

@[simp] theorem State.applyReset_strobe (s : State) : (s.applyReset).strobe = .idle := rfl

@[simp] theorem State.applyReset_acc (s : State) : (s.applyReset).acc = 0 := rfl

@[simp] theorem State.applyReset_cnt (s : State) : (s.applyReset).cnt = 0 := rfl

@[simp] theorem State.applyReset_sync (s : State) : (s.applyReset).sync = .unsynchronized := rfl

@[simp] theorem State.applyReset_cur (s : State) : (s.applyReset).cur = 0 := rfl

@[simp] theorem State.applyReset_input (s : State) : (s.applyReset).input = s.input := rfl

@[simp] theorem State.applyReset_out (s : State) : (s.applyReset).out = OutRec.none := rfl

@[simp] theorem State.applyReset_bytes (s : State) : (s.applyReset).bytes = s.bytes := rfl

@[simp] theorem State.applyReset_events (s : State) : (s.applyReset).events = s.events := rfl

/-! The decoder's own record under each operation: the outputs are no part of it (10_state.md R23). -/

@[simp] theorem State.setStrobe_toDecoder (s : State) (v : Strobe) :
    (s.setStrobe v).toDecoder = { s.toDecoder with strobe := v } := rfl

@[simp] theorem State.setSync_toDecoder (s : State) (v : Sync) :
    (s.setSync v).toDecoder = { s.toDecoder with sync := v } := rfl

@[simp] theorem State.setCur_toDecoder (s : State) (v : Cursor) :
    (s.setCur v).toDecoder = { s.toDecoder with cur := v } := rfl

@[simp] theorem State.setAccCnt_toDecoder (s : State) (a : Byte) (c : Count) :
    (s.setAccCnt a c).toDecoder = { s.toDecoder with acc := a, cnt := c } := rfl

@[simp] theorem State.restartByte_toDecoder (s : State) :
    (s.restartByte).toDecoder = { s.toDecoder with acc := 0, cnt := 0 } := rfl

@[simp] theorem State.dropBit_toDecoder (s : State) (b : Byte) :
    (s.dropBit b).toDecoder = { s.toDecoder with acc := b &&& 0x7F, cnt := 7 } := rfl

@[simp] theorem State.clearOut_toDecoder (s : State) : (s.clearOut).toDecoder = s.toDecoder := rfl

@[simp] theorem State.emit_toDecoder (s : State) (b : Byte) : (s.emit b).toDecoder = s.toDecoder := rfl

@[simp] theorem State.diag_toDecoder (s : State) (e : Event) : (s.diag e).toDecoder = s.toDecoder := rfl

@[simp] theorem State.applyReset_toDecoder (s : State) : (s.applyReset).toDecoder = State.reset.toDecoder := rfl

end Sys2Proof.Machine
end

