-- ==== Sys2Proof/Laws/Step.lean ====
section
/-! SUPPORT. What one operation, one Sample and one chunk can do, each said once. -/

namespace Sys2Proof.Machine

/-- `COMPLETE` is one of the five byte-level operations, each with its condition (30_encoding.md R55). -/
theorem execComplete_cases (b : Byte) (s : State) :
    (s.sync = .synchronized ∧ s.cur.val ≠ 0 ∧ execComplete b s = execPayload b s) ∨
    (s.sync = .unsynchronized ∧ IsSyncValue b ∧ execComplete b s = execAcquire b s) ∨
    (s.sync = .synchronized ∧ s.cur.val = 0 ∧ IsSyncValue b ∧ execComplete b s = execConfirm b s) ∨
    (s.sync = .synchronized ∧ s.cur.val = 0 ∧ ¬ IsSyncValue b ∧ execComplete b s = execLose b s) ∨
    (s.sync = .unsynchronized ∧ ¬ IsSyncValue b ∧ execComplete b s = execSlide b s) := by
  unfold execComplete
  rw [← syncMatch_iff]
  cases s.sync <;> by_cases hc : s.cur.val = 0 <;> cases syncMatch b <;> simp [hc]

/-- `FALL` is `SHIFT` below the count 7 and `COMPLETE` at it (40_bit_sampler.md R73). -/
theorem execFall_cases (d : Bool) (s : State) :
    (∃ c : Count, c.val = s.cnt.val + 1 ∧
      execFall d s = execShift (shiftIn s.acc d) c (s.setStrobe .idle)) ∨
    (s.cnt.val = 7 ∧ execFall d s = execComplete (shiftIn s.acc d) (s.setStrobe .idle)) := by
  unfold execFall
  split
  · exact .inl ⟨_, rfl, rfl⟩
  · exact .inr ⟨by have := s.cnt.isLt; omega, rfl⟩

/-- Every step of one Sample is one of the four sample-level operations, with its condition (R54). -/
theorem takeSample_cases (m : Masks) (x : Sample) (s : State) :
    (s.strobe = .idle ∧ crx m x = false ∧ takeSample m x s = execNopLow s) ∨
    (s.strobe = .idle ∧ crx m x = true ∧ takeSample m x s = execRise s) ∨
    (s.strobe = .asserted ∧ crx m x = true ∧ takeSample m x s = execNopHigh s) ∨
    (s.strobe = .asserted ∧ crx m x = false ∧ takeSample m x s = execFall (drx m x) s) := by
  unfold takeSample
  rw [operation_eq]
  cases s.strobe <;> cases crx m x <;> simp [exec]

/-- Every operation answers a next state, in every state and on every operand (20_memory.md R42). -/
theorem exec_next (i : Instr) (s : State) : ∃ t, exec i s = .next t := by
  have complete (b : Byte) (s : State) : ∃ t, execComplete b s = .next t := by
    rcases execComplete_cases b s with ⟨-, -, h⟩ | ⟨-, -, h⟩ | ⟨-, -, -, h⟩ | ⟨-, -, -, h⟩ | ⟨-, -, h⟩ <;>
      exact ⟨_, h⟩
  cases i with
  | fall d =>
    rcases execFall_cases d s with ⟨c, -, h⟩ | ⟨-, h⟩
    · exact ⟨_, h⟩
    · obtain ⟨t, ht⟩ := complete (shiftIn s.acc d) (s.setStrobe .idle)
      exact ⟨t, h.trans ht⟩
  | complete b => exact complete b s
  | _ => exact ⟨_, rfl⟩

theorem takeSample_next (m : Masks) (x : Sample) (s : State) : ∃ t, takeSample m x s = .next t :=
  exec_next _ s

/-- One Sample of a chunk, and then the rest of it (43_step_and_feed.md R112). -/
theorem feed_cons_eq (m : Masks) (x : Sample) (xs : List Sample) (s t u : State) (rs : List OutRec)
    (hx : takeSample m x s = .next t) (hxs : feed m xs t = .next (u, rs)) :
    feed m (x :: xs) s = .next (u, t.out :: rs) := by
  simp [feed, hx, hxs]

/-- What a chunk that answers has done: its first Sample answered, and so did the rest. -/
theorem feed_cons_inv (m : Masks) (x : Sample) (xs : List Sample) (s u : State) (qs : List OutRec)
    (h : feed m (x :: xs) s = .next (u, qs)) :
    ∃ t rs, takeSample m x s = .next t ∧ feed m xs t = .next (u, rs) ∧ qs = t.out :: rs := by
  obtain ⟨t, ht⟩ := takeSample_next m x s
  simp only [feed, ht] at h
  cases hr : feed m xs t with
  | next p =>
    obtain ⟨v, rs⟩ := p
    simp only [hr, Host.Outcome.next.injEq, Prod.mk.injEq] at h
    exact ⟨t, rs, ht, by rw [hr, h.1], h.2.symm⟩
  | fault r => simp [hr] at h
  | refused r => simp [hr] at h

/-- The canonical Samples `Hd` and `Ld` under this hardware's masks (30_encoding.md R51). -/
@[simp] theorem crx_symbol (c d : Bool) : crx Config.masks (symbol c d) = c := by
  cases c <;> cases d <;> rfl

@[simp] theorem drx_symbol (c d : Bool) : drx Config.masks (symbol c d) = d := by
  cases c <;> cases d <;> rfl

/-- `BIT` for each bit of a list is a correct encoding of the list (30_encoding.md R58). -/
theorem bitsStream_encodes (ds : List Bool) : Encodes Config.masks ds (bitsStream ds) := by
  induction ds with
  | nil => exact .nil
  | cons d ds ih =>
    have h := Encodes.bit (m := Config.masks) [symbol true d] (symbol false d) ds (bitsStream ds)
      (by simp) (by simp) (by simp) ih
    rwa [drx_symbol] at h

end Sys2Proof.Machine
end

