-- ==== Sys2Proof/Tests/Slice0.lean ====
section
/-! SUPPORT. Small tests. Expected results are those of spec/95_test_vectors.md (V and S numbers), of the worked examples
of the rules, or words written out from 30_encoding.md R54 and R55. The `witness_` theorems show states and operands that
meet the hypotheses of the statement they name. -/

namespace Sys2Proof.Tests

open Sys2Proof.Machine

/-- A state with the given registers, nothing sent and nothing pending. -/
def st (strobe : Strobe) (acc : Byte) (cnt : Count) (sync : Sync) (cur : Cursor) : State :=
  { State.reset with strobe := strobe, acc := acc, cnt := cnt, sync := sync, cur := cur }

/-- The next state, where there is one. -/
def after : Host.Outcome State Fault Refusal → Option State
  | .next s => some s
  | .fault _ => none
  | .refused _ => none

/-- One step of s on the Sample x. -/
def on (s : State) (x : Sample) : Option State := after (step { s with input := [Cycle.present x] })

/-- The operation of a decode word, where there is one. -/
def decoded (w : DecodeWord) : Option Instr :=
  match decode w with
  | .ok i => some i
  | .error _ => none

/-- The output record of an emitted byte. -/
def sent (b : Byte) (acq : Bool) : OutRec :=
  { outValid := true, outByte := b, evAcq := acq, evLost := false, evRej := false }

/-- The output record of a rejected byte. -/
def rejected (lost : Bool) : OutRec :=
  { outValid := false, outByte := 0, evAcq := false, evLost := lost, evRej := true }

/-! ## Well-formedness refuses each ill-formed operand -/

theorem test_shift_zero_ill_formed : (Instr.shift 0x00 0).wellFormed = false := by decide

theorem test_acquire_ill_formed : (Instr.acquire 0xB8).wellFormed = false := by decide

theorem test_confirm_ill_formed : (Instr.confirm 0x46).wellFormed = false := by decide

theorem test_lose_ill_formed : (Instr.lose 0x47).wellFormed = false := by decide

theorem test_slide_ill_formed : (Instr.slide 0x64).wellFormed = false := by decide

theorem test_well_formed : (Instr.shift 0x46 7).wellFormed = true ∧ (Instr.confirm 0x64).wellFormed = true ∧
    (Instr.slide 0xB8).wellFormed = true := by decide

/-! ## Decoding, words written out from R54 and R55 -/

theorem test_decode_nopLow : decoded (.sample 0b001) = some .nopLow := by decide

theorem test_decode_rise : decoded (.sample 0b011) = some .rise := by decide

theorem test_decode_nopHigh : decoded (.sample 0b110) = some .nopHigh := by decide

theorem test_decode_fall : decoded (.sample 0b101) = some (.fall true) := by decide

theorem test_decode_shift : decoded (.bit 0b0111 0x46) = some (.shift 0x46 7) := by decide

theorem test_decode_complete : decoded (.bit 0b1000 0x47) = some (.complete 0x47) := by decide

theorem test_decode_payload : decoded (.byte 0b101 0x64) = some (.payload 0x64) := by decide

theorem test_decode_acquire : decoded (.byte 0b001 0x64) = some (.acquire 0x64) := by decide

theorem test_decode_confirm : decoded (.byte 0b111 0x47) = some (.confirm 0x47) := by decide

theorem test_decode_lose : decoded (.byte 0b110 0xA3) = some (.lose 0xA3) := by decide

theorem test_decode_slide : decoded (.byte 0b010 0xAC) = some (.slide 0xAC) := by decide

theorem test_decode_rejects : decoded (.bit 0b0000 0x00) = none ∧ decoded (.bit 0b1001 0x00) = none ∧
    decoded (.bit 0b1111 0x00) = none ∧ decoded (.byte 0b111 0x46) = none := by decide

theorem test_table_words : decodeTableWord 8 0b100 = some (.fall false) ∧
    decodeTableWord 8 0b1000 = some (.complete 0) ∧ decodeTableWord 8 0b1001 = none := by decide

/-! ## Single steps, from the vectors -/

theorem test_V2_nopLow : on (st .idle 0x05 3 .unsynchronized 0) 0x01 = some (st .idle 0x05 3 .unsynchronized 0) := by
  decide

theorem test_V10_rise : on (st .idle 0x05 3 .unsynchronized 0) 0xFE = some (st .asserted 0x05 3 .unsynchronized 0) := by
  decide

theorem test_V8_nopHigh :
    on (st .asserted 0x05 3 .unsynchronized 0) 0x03 = some (st .asserted 0x05 3 .unsynchronized 0) := by decide

theorem test_V9_fall : on (st .asserted 0x05 3 .unsynchronized 0) 0xFD = some (st .idle 0x0B 4 .unsynchronized 0) := by
  decide

theorem test_V5_fall : on (st .asserted 0x05 3 .unsynchronized 0) 0x00 = some (st .idle 0x0A 4 .unsynchronized 0) := by
  decide

theorem test_V22_shift : on (st .asserted 0x23 6 .synchronized 17) 0x00 = some (st .idle 0x46 7 .synchronized 17) := by
  decide

theorem test_V23_shift : on (st .asserted 0x3F 6 .unsynchronized 0) 0x01 = some (st .idle 0x7F 7 .unsynchronized 0) := by
  decide

theorem test_V24_complete : on (st .asserted 0x7F 7 .synchronized 5) 0x01 =
    some { st .idle 0x00 0 .synchronized 6 with bytes := [0xFF], out := sent 0xFF false } := by decide

theorem test_V32_payload_wraps : on (st .asserted 0x52 7 .synchronized 191) 0x01 =
    some { st .idle 0x00 0 .synchronized 0 with bytes := [0xA5], out := sent 0xA5 false } := by decide

theorem test_V33_payload_sync_value : on (st .asserted 0x23 7 .synchronized 71) 0x01 =
    some { st .idle 0x00 0 .synchronized 72 with bytes := [0x47], out := sent 0x47 false } := by decide

theorem test_V35_acquire : on (st .asserted 0x23 7 .unsynchronized 0) 0x01 =
    some { st .idle 0x00 0 .synchronized 1 with bytes := [0x47], events := [.syncAcquired], out := sent 0x47 true } := by
  decide

theorem test_V36_acquire : on (st .asserted 0x32 7 .unsynchronized 0) 0x00 =
    some { st .idle 0x00 0 .synchronized 1 with bytes := [0x64], events := [.syncAcquired], out := sent 0x64 true } := by
  decide

theorem test_V38_confirm : on (st .asserted 0x32 7 .synchronized 0) 0x00 =
    some { st .idle 0x00 0 .synchronized 1 with bytes := [0x64], out := sent 0x64 false } := by decide

theorem test_V40_lose : on (st .asserted 0x51 7 .synchronized 0) 0x01 =
    some { st .idle 0x23 7 .unsynchronized 0 with events := [.syncLost, .byteRejected], out := rejected true } := by
  decide

theorem test_V42_lose_near_miss : on (st .asserted 0x23 7 .synchronized 0) 0x00 =
    some { st .idle 0x46 7 .unsynchronized 0 with events := [.syncLost, .byteRejected], out := rejected true } := by
  decide

theorem test_V44_slide : on (st .asserted 0x56 7 .unsynchronized 0) 0x00 =
    some { st .idle 0x2C 7 .unsynchronized 0 with events := [.byteRejected], out := rejected false } := by decide

theorem test_V48_slide_reversed_sync : on (st .asserted 0x71 7 .unsynchronized 0) 0x00 =
    some { st .idle 0x62 7 .unsynchronized 0 with events := [.byteRejected], out := rejected false } := by decide

/-- `BYTE 0x47` is the Sample words of program P1. -/
theorem test_byteStream_P1 : byteStream 0x47 =
    [0x02, 0x00, 0x03, 0x01, 0x02, 0x00, 0x02, 0x00, 0x02, 0x00, 0x03, 0x01, 0x03, 0x01, 0x03, 0x01] := by decide

/-- The first slipped bytes of program P5: 0x65 and 0x66 behind the spurious bit 1. -/
theorem test_slippedBytes_P5 : slippedBytes true [0x65, 0x66] = [0xB2, 0xB3] := by decide

theorem test_fetch_word_runs_nopHigh :
    after (step (State.reset.withFetchWord 8 0b110)) = some (st .asserted 0x00 0 .unsynchronized 0) := by decide

/-! ## Witnesses: hypotheses that can be met -/

theorem witness_BitAndByteMapsGiveEachOperation :
    (7 : Count) ≠ 0 ∧ 8 < (9 : BitVec 4).toNat ∧ 8 < (15 : BitVec 4).toNat ∧ syncMatch 0x47 = true ∧
      syncMatch 0x64 = true ∧ syncMatch 0xB8 = false := by decide

theorem witness_DecodeOfEncodeIsIdentity :
    (Instr.shift 0x7F 7).wellFormed = true ∧ (Instr.shift 0x01 1).wellFormed = true ∧
      (Instr.acquire 0x64).wellFormed = true ∧ (Instr.lose 0xFF).wellFormed = true := by decide

theorem witness_DecodedOperationsAreWellFormed : decode (.byte 0b110 0xA3) = .ok (.lose 0xA3) := rfl

theorem witness_StepRunsTheDecodedOperation :
    ({ State.reset with input := [Cycle.present 0x02, Cycle.idle] } : State).input = Cycle.present 0x02 :: [Cycle.idle] :=
  rfl

theorem witness_StepOnRstResetsTheRegisters :
    ({ st .asserted 0x23 7 .synchronized 5 with input := [⟨true, true, 0x01⟩] } : State).input = ⟨true, true, 0x01⟩ :: [] :=
  rfl

theorem witness_StepWithoutSampleHolds :
    ({ State.reset with input := [Cycle.idle] } : State).input = ⟨false, false, 0⟩ :: [] ∧ State.reset.input = [] :=
  ⟨rfl, rfl⟩

theorem witness_NopLowChangesNothing : State.reset.strobe = .idle ∧ crx Config.masks 0xFD = false := by decide

theorem witness_RiseSetsStrobe : State.reset.strobe = .idle ∧ crx Config.masks 0x02 = true := by decide

theorem witness_NopHighChangesNothing :
    (st .asserted 0x00 0 .unsynchronized 0).strobe = .asserted ∧ crx Config.masks 0xFF = true := by decide

theorem witness_FallSamplesOneBit :
    (st .asserted 0x3F 6 .unsynchronized 0).strobe = .asserted ∧ crx Config.masks 0x01 = false ∧
      (st .asserted 0x3F 6 .unsynchronized 0).cnt.val + 1 = (7 : Count).val ∧
      State.reset.cnt.val + 1 = (1 : Count).val ∧ (st .asserted 0x7F 7 .unsynchronized 0).cnt = 7 := by decide

theorem witness_ShiftStoresOneMoreBit : (st .asserted 0x3F 6 .unsynchronized 0).cnt.val + 1 = (7 : Count).val := by
  decide

theorem witness_PayloadPassesTheByteThrough :
    (st .idle 0x00 7 .synchronized 1).sync = .synchronized ∧ (st .idle 0x00 7 .synchronized 1).cur ≠ 0 ∧
      (191 : Cursor).val = (if (190 : Cursor).val + 1 = 192 then 0 else (190 : Cursor).val + 1) ∧
      (0 : Cursor).val = (if (191 : Cursor).val + 1 = 192 then 0 else (191 : Cursor).val + 1) := by decide

theorem witness_AcquireGainsSync : State.reset.sync = .unsynchronized ∧ ((0x64 : Byte) = 0x47 ∨ (0x64 : Byte) = 0x64) := by
  decide

theorem witness_ConfirmKeepsSync :
    (st .idle 0x00 7 .synchronized 0).sync = .synchronized ∧ (st .idle 0x00 7 .synchronized 0).cur = 0 ∧
      ((0x47 : Byte) = 0x47 ∨ (0x47 : Byte) = 0x64) := by decide

theorem witness_LoseDropsOneBit :
    (st .idle 0x00 7 .synchronized 0).sync = .synchronized ∧ (st .idle 0x00 7 .synchronized 0).cur = 0 ∧
      (0x46 : Byte) ≠ 0x47 ∧ (0x46 : Byte) ≠ 0x64 := by decide

theorem witness_SlideDropsOneBit :
    State.reset.sync = .unsynchronized ∧ (0x65 : Byte) ≠ 0x47 ∧ (0x65 : Byte) ≠ 0x64 := by decide

theorem witness_FrameOfQuietOperations :
    (∃ t, exec .nopLow State.reset = .next t) ∧ (∃ t, exec .rise State.reset = .next t) ∧
      (∃ t, exec .nopHigh State.reset = .next t) ∧ ∃ t, exec (.shift 0x01 1) State.reset = .next t :=
  ⟨⟨_, rfl⟩, ⟨_, rfl⟩, ⟨_, rfl⟩, ⟨_, rfl⟩⟩

theorem witness_FrameOfTrackerOperations :
    (∃ t, exec (.payload 0xA5) State.reset = .next t) ∧ (∃ t, exec (.acquire 0x47) State.reset = .next t) ∧
      (∃ t, exec (.confirm 0x47) State.reset = .next t) ∧ (∃ t, exec (.lose 0xA5) State.reset = .next t) ∧
      ∃ t, exec (.slide 0xA5) State.reset = .next t :=
  ⟨⟨_, rfl⟩, ⟨_, rfl⟩, ⟨_, rfl⟩, ⟨_, rfl⟩, ⟨_, rfl⟩⟩

theorem witness_FrameOfFallAndComplete :
    (∃ t, exec (.fall true) State.reset = .next t) ∧ State.reset.cnt ≠ 7 ∧
      ∃ t, exec (.complete 0xA5) State.reset = .next t :=
  ⟨⟨_, rfl⟩, by decide, ⟨_, rfl⟩⟩

theorem witness_BitsEnterMostSignificantFirst : State.reset.strobe = .idle ∧ State.reset.cnt = 0 := by decide

theorem witness_ShiftIsDoublingModulo256 :
    (st .asserted 0x7F 7 .unsynchronized 0).Inv ∧ (st .asserted 0x05 3 .synchronized 9).Inv := by decide

theorem witness_SyncAcquiredExactlyOnGain :
    ∃ t, takeSample Config.masks 0x01 (st .asserted 0x23 7 .unsynchronized 0) = .next t ∧ t.out.evAcq = true :=
  ⟨_, rfl, rfl⟩

theorem witness_SyncLostExactlyOnLoss :
    ∃ t, takeSample Config.masks 0x01 (st .asserted 0x51 7 .synchronized 0) = .next t ∧ t.out.evLost = true :=
  ⟨_, rfl, rfl⟩

theorem witness_ByteRejectedExactlyOnFailedTest :
    ∃ t, takeSample Config.masks 0x00 (st .asserted 0x56 7 .unsynchronized 0) = .next t ∧ t.out.evRej = true :=
  ⟨_, rfl, rfl⟩

theorem witness_HuntingEmitsOnlySyncValues :
    (st .asserted 0x23 7 .unsynchronized 0).sync = .unsynchronized ∧
      (∃ t, takeSample Config.masks 0x01 (st .asserted 0x23 7 .unsynchronized 0) = .next t ∧ t.bytes = [0x47]) ∧
      ∃ u, takeSample Config.masks 0x01 ((st .asserted 0x23 7 .unsynchronized 0).setCur 5) = .next u :=
  ⟨rfl, ⟨_, rfl, rfl⟩, ⟨_, rfl⟩⟩

/-- A hunting state in which the Sample 0x01 completes the sync value 0x47, and one in which it completes 0x65. -/
theorem witness_HuntingEmitsOnlySyncValues_tested :
    (st .asserted 0x23 7 .unsynchronized 5).sync = .unsynchronized ∧
      (st .asserted 0x23 7 .unsynchronized 5).strobe = .asserted ∧ crx Config.masks 0x01 = false ∧
      (st .asserted 0x23 7 .unsynchronized 5).cnt = 7 ∧ IsSyncValue (shiftIn 0x23 (drx Config.masks 0x01)) ∧
      ¬ IsSyncValue (shiftIn (st .asserted 0x32 7 .unsynchronized 0).acc (drx Config.masks 0x01)) := by decide

theorem witness_RepeatedSampleDoesNothing :
    crx Config.masks 0x00 = crx Config.masks 0x01 ∧
      ∃ t, takeSample Config.masks 0x01 (st .asserted 0x05 3 .unsynchronized 0) = .next t :=
  ⟨rfl, ⟨_, rfl⟩⟩

theorem witness_OnlySixKindsOfRecord :
    ∃ t, step { st .asserted 0x51 7 .synchronized 0 with input := [Cycle.present 0x01] } = .next t ∧ t.out.ev = 0b110 :=
  ⟨_, rfl, rfl⟩

theorem witness_StepKeepsInvariant :
    ({ st .asserted 0x51 7 .synchronized 0 with input := [Cycle.present 0x01] } : State).Inv ∧
      ∃ t, step { st .asserted 0x51 7 .synchronized 0 with input := [Cycle.present 0x01] } = .next t :=
  ⟨by decide, ⟨_, rfl⟩⟩

theorem witness_StreamsGrowByTheRecord :
    ∃ t, step { st .asserted 0x23 7 .unsynchronized 0 with input := [Cycle.present 0x01] } = .next t ∧
      t.out.byteList = [0x47] ∧ t.out.eventList = [.syncAcquired] :=
  ⟨_, rfl, rfl, rfl⟩

theorem witness_StepReadsOnlyRegistersAndInput :
    State.SameInputs State.reset { State.reset with bytes := [0x47], events := [.syncLost], out := sent 0x47 true } ∧
      (∃ t, step State.reset = .next t) ∧
      ∃ t, step { State.reset with bytes := [0x47], events := [.syncLost], out := sent 0x47 true } = .next t :=
  ⟨by decide, ⟨_, rfl⟩, ⟨_, rfl⟩⟩

/-- Two states with the same registers and different pending cycles and bytes sent, fed the same two Samples. -/
theorem witness_StepReadsOnlyRegistersAndInput_feed :
    State.reset.toDecoder = ({ State.reset with input := [Cycle.idle], bytes := [0x47] } : State).toDecoder ∧
      (∃ t rs, feed Config.masks [0x02, 0x01] State.reset = .next (t, rs)) ∧
      ∃ t rs, feed Config.masks [0x02, 0x01] { State.reset with input := [Cycle.idle], bytes := [0x47] } = .next (t, rs) :=
  ⟨rfl, ⟨_, _, rfl⟩, ⟨_, _, rfl⟩⟩

theorem witness_ChunkBoundariesDoNotMatter :
    ∃ t rs u qs, feed Config.masks [0x02] State.reset = .next (t, rs) ∧ feed Config.masks [0x01] t = .next (u, qs) :=
  ⟨_, _, _, _, rfl, rfl⟩

theorem witness_FeedIsABurstOfSteps :
    ∃ t rs, feed Config.masks [0x02, 0x01] State.reset = .next (t, rs) ∧ t.cnt = 1 :=
  ⟨_, _, rfl, rfl⟩

theorem witness_OnlyRecoveredBitsMatter :
    recoveredBits Config.masks State.reset.strobe [0x02, 0x01] =
        recoveredBits Config.masks State.reset.strobe [0x00, 0x02, 0x02, 0x01, 0x00] ∧
      (∃ t rs, feed Config.masks [0x02, 0x01] State.reset = .next (t, rs)) ∧
      ∃ u qs, feed Config.masks [0x00, 0x02, 0x02, 0x01, 0x00] State.reset = .next (u, qs) :=
  ⟨by decide, ⟨_, _, rfl⟩, ⟨_, _, rfl⟩⟩

theorem witness_EncodedStreamsDeliverTheirBits : Encodes Config.masks [true, false] (bitsStream [true, false]) :=
  bitsStream_encodes _

/-- One chunk from reset meets the hypothesis of every statement about runs from reset. -/
theorem witness_runs_from_reset :
    (∃ t rs, feed Config.masks [0x02] State.reset = .next (t, rs)) ∧
      (recoveredBits Config.masks .idle [0x02]).length < 8 ∧
      (∃ t rs, feed Config.masks (byteStream 0x23) State.reset = .next (t, rs) ∧ t.sync = .unsynchronized) ∧
      8 ≤ (recoveredBits Config.masks .idle (byteStream 0x23)).length :=
  ⟨⟨_, _, rfl⟩, by decide, ⟨_, _, rfl, rfl⟩, by decide⟩

/-- Fifteen Samples of `BYTE 0x47` and then its last one emit; fifteen of `BYTE 0x23` and its last one reject. -/
theorem witness_CompletedByteIsTheLatestEightBits :
    (∃ s rs t, feed Config.masks ((byteStream 0x47).take 15) State.reset = .next (s, rs) ∧
      takeSample Config.masks 0x01 s = .next t ∧ t.out.outValid = true) ∧
      ∃ s rs t, feed Config.masks ((byteStream 0x23).take 15) State.reset = .next (s, rs) ∧
        takeSample Config.masks 0x01 s = .next t ∧ t.out.evRej = true :=
  ⟨⟨_, _, _, rfl, rfl, rfl⟩, ⟨_, _, _, rfl, rfl, rfl⟩⟩

theorem witness_PayloadRunIsEmittedUnchanged :
    (st .idle 0x00 0 .synchronized 191).strobe = .idle ∧ (st .idle 0x00 0 .synchronized 191).cnt = 0 ∧
      (st .idle 0x00 0 .synchronized 191).sync = .synchronized ∧ (st .idle 0x00 0 .synchronized 191).cur ≠ 0 ∧
      [(0x47 : Byte)] ≠ [] ∧ (st .idle 0x00 0 .synchronized 191).cur.val + [(0x47 : Byte)].length ≤ 192 ∧
      (st .idle 0x00 0 .synchronized 1).cur.val + (List.replicate 191 (0x00 : Byte)).length ≤ 192 :=
  ⟨rfl, rfl, rfl, by decide, by decide, by decide, by rw [List.length_replicate]; decide⟩

theorem witness_OneCleanPacketFromReset :
    IsSyncValue 0x64 ∧ (List.replicate 191 (0x47 : Byte)).length = 191 ∧
      Encodes Config.masks ((0x64 :: List.replicate 191 (0x47 : Byte)).flatMap byteBits)
        (bitsStream ((0x64 :: List.replicate 191 (0x47 : Byte)).flatMap byteBits)) :=
  ⟨by decide, List.length_replicate, bitsStream_encodes _⟩

theorem witness_OneExtraBitIsRecovered :
    (st .idle 0x00 0 .synchronized 191).strobe = .idle ∧ (st .idle 0x00 0 .synchronized 191).cnt = 0 ∧
      (st .idle 0x00 0 .synchronized 191).sync = .synchronized ∧ (st .idle 0x00 0 .synchronized 191).cur ≠ 0 ∧
      (st .idle 0x00 0 .synchronized 191).cur.val + [(0xFF : Byte)].length = 192 ∧ IsSyncValue 0x47 := by decide

theorem witness_OneMissingBitLosesSync :
    (st .idle 0x00 0 .synchronized 191).strobe = .idle ∧ (st .idle 0x00 0 .synchronized 191).cnt = 0 ∧
      (st .idle 0x00 0 .synchronized 191).sync = .synchronized ∧ (st .idle 0x00 0 .synchronized 191).cur ≠ 0 ∧
      [false, true, true, false, false, true, false].length = 7 ∧
      (st .idle 0x00 0 .synchronized 191).cur.val + 1 + ([] : List Byte).length = 192 ∧ IsSyncValue 0x64 := by decide

theorem witness_MalformedFeedCallsAreRejected :
    ((-1 : Int) < 0) ∧ (([0x02] : List Sample).length < (2 : Int)) ∧ 1 ≤ ([0x02] : List Sample).length ∧
      0 ≤ ([] : List Sample).length := by decide

theorem witness_ConstructionNeedsOneHotMasks :
    (∃ i < 8, ∃ j < 8, i ≠ j ∧ Config.masks.drx = BitVec.twoPow 8 i ∧ Config.masks.crx = BitVec.twoPow 8 j) ∧
      ¬ ∃ i < 8, ∃ j < 8, i ≠ j ∧ (⟨0x03, 0x02⟩ : Masks).drx = BitVec.twoPow 8 i ∧
        (⟨0x03, 0x02⟩ : Masks).crx = BitVec.twoPow 8 j := by decide

end Sys2Proof.Tests
end

/-! # Proofs: the state and its invariants

What a step can do is said once, as three step relations (one for `COMPLETE`, one for `FALL`, one for a Sample) and one
induction over the recovered bits of a chunk; the statements about the state are read off them. -/

namespace Sys2Proof.Machine

/-! ## The step relations: the next state of each level, with its condition -/

/-- What `COMPLETE` on the byte b can make of a state (42_sync_tracker.md R90 to R94). -/
inductive ByteStep (b : Byte) (s : State) : State → Prop
  | payload : s.sync = .synchronized → s.cur.val ≠ 0 →
      ByteStep b s ((s.clearOut.emit b).setCur (nextCursor s.cur)).restartByte
  | acquire : s.sync = .unsynchronized → IsSyncValue b →
      ByteStep b s ((((s.clearOut.emit b).diag .syncAcquired).setSync .synchronized).setCur 1).restartByte
  | confirm : s.sync = .synchronized → s.cur.val = 0 → IsSyncValue b →
      ByteStep b s (((s.clearOut.emit b).setSync .synchronized).setCur 1).restartByte
  | lose : s.sync = .synchronized → s.cur.val = 0 → ¬ IsSyncValue b →
      ByteStep b s ((((s.clearOut.diag .syncLost).diag .byteRejected).setSync .unsynchronized).dropBit b)
  | slide : s.sync = .unsynchronized → ¬ IsSyncValue b →
      ByteStep b s (((s.clearOut.diag .byteRejected).setSync .unsynchronized).dropBit b)

/-- What `FALL` with the recovered bit d can make of a state (40_bit_sampler.md R73). -/
inductive FallStep (d : Bool) (s : State) : State → Prop
  | shift (c : Count) : c.val = s.cnt.val + 1 →
      FallStep d s ((s.setStrobe .idle).clearOut.setAccCnt (shiftIn s.acc d) c)
  | complete (t : State) : s.cnt.val = 7 → ByteStep (shiftIn s.acc d) (s.setStrobe .idle) t → FallStep d s t

/-- What one Sample can make of a state: without a falling edge only `STROBE` follows the level (R70 to R72). -/
inductive SampleStep (m : Masks) (x : Sample) (s : State) : State → Prop
  | quiet : ¬ (s.strobe = .asserted ∧ crx m x = false) →
      SampleStep m x s (s.clearOut.setStrobe (strobeOfLevel (crx m x)))
  | fall (t : State) : s.strobe = .asserted → crx m x = false → FallStep (drx m x) s t → SampleStep m x s t

theorem byteStep_of_execComplete {b : Byte} {s t : State} (h : execComplete b s = .next t) : ByteStep b s t := by
  rcases execComplete_cases b s with
      ⟨hs, hc, e⟩ | ⟨hs, hb, e⟩ | ⟨hs, hc, hb, e⟩ | ⟨hs, hc, hb, e⟩ | ⟨hs, hb, e⟩ <;>
    cases e.symm.trans h
  · exact .payload hs hc
  · exact .acquire hs hb
  · exact .confirm hs hc hb
  · exact .lose hs hc hb
  · exact .slide hs hb

theorem fallStep_of_execFall {d : Bool} {s t : State} (h : execFall d s = .next t) : FallStep d s t := by
  rcases execFall_cases d s with ⟨c, hc, e⟩ | ⟨hc, e⟩
  · cases e.symm.trans h
    exact .shift c hc
  · exact .complete t hc (byteStep_of_execComplete (e.symm.trans h))

/-- Where `STROBE` already stands at v, writing v changes nothing. -/
theorem clearOut_setStrobe_self {s : State} {v : Strobe} (h : s.strobe = v) : s.clearOut.setStrobe v = s.clearOut := by
  subst h
  rfl

theorem sampleStep_of_takeSample {m : Masks} {x : Sample} {s t : State} (h : takeSample m x s = .next t) :
    SampleStep m x s t := by
  rcases takeSample_cases m x s with ⟨hs, hx, e⟩ | ⟨hs, hx, e⟩ | ⟨hs, hx, e⟩ | ⟨hs, hx, e⟩
  · cases e.symm.trans h
    rw [← clearOut_setStrobe_self hs, ← strobeOfLevel_false, ← hx]
    exact .quiet (by simp [hs])
  · cases e.symm.trans h
    rw [← strobeOfLevel_true, ← hx]
    exact .quiet (by simp [hs])
  · cases e.symm.trans h
    rw [← clearOut_setStrobe_self hs, ← strobeOfLevel_true, ← hx]
    exact .quiet (by simp [hx])
  · exact .fall t hs hx (fallStep_of_execFall (e.symm.trans h))

/-- What one clock cycle can do (70_reset_and_hazards.md R153). -/
theorem runCycle_cases {m : Masks} {c : Cycle} {s t : State} (h : runCycle m c s = .next t) :
    (c.rst = true ∧ t = s.applyReset) ∨
    (c.rst = false ∧ c.inValid = false ∧ t = s.clearOut) ∨
    (c.rst = false ∧ c.inValid = true ∧ takeSample m c.inSample s = .next t) := by
  unfold runCycle at h
  cases hr : c.rst <;> cases hv : c.inValid <;> simp_all

/-- A step runs the next pending cycle, or an idle one where none is pending (log entry 4). -/
theorem stepWith_eq_runCycle (m : Masks) (s : State) :
    stepWith m s = runCycle m (s.input.headD Cycle.idle) { s with input := s.input.tail } := by
  obtain ⟨decoder, input, out, bytes, events⟩ := s
  cases input with
  | nil => rfl
  | cons c rest => rfl

/-! ## Frames -/

theorem ByteStep.strobe_eq {b : Byte} {s t : State} (h : ByteStep b s t) : t.strobe = s.strobe := by
  cases h <;> rfl

theorem ByteStep.input_eq {b : Byte} {s t : State} (h : ByteStep b s t) : t.input = s.input := by
  cases h <;> rfl

theorem FallStep.strobe_eq {d : Bool} {s t : State} (h : FallStep d s t) : t.strobe = .idle := by
  cases h with
  | shift c hc => rfl
  | complete t hc hb => exact hb.strobe_eq

theorem FallStep.input_eq {d : Bool} {s t : State} (h : FallStep d s t) : t.input = s.input := by
  cases h with
  | shift c hc => rfl
  | complete t hc hb => exact hb.input_eq

/-- Below the count 7 a falling edge writes neither the tracker's registers nor the streams. -/
theorem FallStep.tracker_eq {d : Bool} {s t : State} (h : FallStep d s t) (hcnt : s.cnt ≠ 7) :
    t.sync = s.sync ∧ t.cur = s.cur ∧ t.bytes = s.bytes ∧ t.events = s.events := by
  cases h with
  | shift c hc => exact ⟨rfl, rfl, rfl, rfl⟩
  | complete t hc hb => exact absurd (Fin.ext hc) hcnt

theorem SampleStep.strobe_eq {m : Masks} {x : Sample} {s t : State} (h : SampleStep m x s t) :
    t.strobe = strobeOfLevel (crx m x) := by
  cases h with
  | quiet hq => rfl
  | fall t hs hx hf => rw [hf.strobe_eq, hx, strobeOfLevel_false]

theorem SampleStep.input_eq {m : Masks} {x : Sample} {s t : State} (h : SampleStep m x s t) : t.input = s.input := by
  cases h with
  | quiet hq => rfl
  | fall t hs hx hf => exact hf.input_eq

theorem runCycle_input_eq {m : Masks} {c : Cycle} {s t : State} (h : runCycle m c s = .next t) :
    t.input = s.input := by
  rcases runCycle_cases h with ⟨-, rfl⟩ | ⟨-, -, rfl⟩ | ⟨-, -, hx⟩
  · rfl
  · rfl
  · exact (sampleStep_of_takeSample hx).input_eq

theorem stepWith_input_eq {m : Masks} {s t : State} (h : stepWith m s = .next t) : t.input = s.input.tail := by
  rw [stepWith_eq_runCycle] at h
  exact runCycle_input_eq h

theorem feed_input_eq {m : Masks} {xs : List Sample} {s t : State} {rs : List OutRec}
    (h : feed m xs s = .next (t, rs)) : t.input = s.input := by
  induction xs generalizing s rs with
  | nil => cases h; rfl
  | cons x xs ih =>
    obtain ⟨u, qs, hx, hxs, -⟩ := feed_cons_inv _ _ _ _ _ _ h
    rw [ih hxs, (sampleStep_of_takeSample hx).input_eq]

/-- The streams of t are those of s with at most one byte and two events after them. -/
def State.AppendsTo (s t : State) : Prop :=
  ∃ bs es, t.bytes = s.bytes ++ bs ∧ t.events = s.events ++ es ∧ bs.length ≤ 1 ∧ es.length ≤ 2

theorem ByteStep.appendsTo {b : Byte} {s t : State} (h : ByteStep b s t) : s.AppendsTo t := by
  cases h with
  | payload => exact ⟨[b], [], by simp, by simp, by simp, by simp⟩
  | acquire => exact ⟨[b], [.syncAcquired], by simp, by simp, by simp, by simp⟩
  | confirm => exact ⟨[b], [], by simp, by simp, by simp, by simp⟩
  | lose => exact ⟨[], [.syncLost, .byteRejected], by simp, by simp, by simp, by simp⟩
  | slide => exact ⟨[], [.byteRejected], by simp, by simp, by simp, by simp⟩

theorem FallStep.appendsTo {d : Bool} {s t : State} (h : FallStep d s t) : s.AppendsTo t := by
  cases h with
  | shift c hc => exact ⟨[], [], by simp, by simp, by simp, by simp⟩
  | complete t hc hb => exact hb.appendsTo

/-- Settles O27: below the count 7 `FALL` is `SHIFT`, and `COMPLETE` only appends. -/
theorem frameOfFallAndComplete : Obligations.FrameOfFallAndComplete := by
  refine ⟨fun d s t h => ?_, fun b s t h => ?_, fun d b s t h => ?_⟩
  · have hf := fallStep_of_execFall h
    exact ⟨hf.input_eq, hf.tracker_eq⟩
  · have hb := byteStep_of_execComplete h
    exact ⟨hb.strobe_eq, hb.input_eq⟩
  · rcases h with h | h
    · exact (fallStep_of_execFall h).appendsTo
    · exact (byteStep_of_execComplete h).appendsTo

/-- Settles O25: each of the four operations writes its own register on a state whose record is cleared. -/
theorem frameOfQuietOperations : Obligations.FrameOfQuietOperations := by
  refine ⟨?_, ?_, ?_⟩
  · rintro i s t (rfl | rfl | rfl | ⟨a, c, rfl⟩) h <;> cases h <;> exact ⟨rfl, rfl, rfl, rfl, rfl, rfl⟩
  · rintro i s t (rfl | rfl | rfl) h <;> cases h <;> exact ⟨rfl, rfl⟩
  · rintro i s t (rfl | rfl | ⟨a, c, rfl⟩) h <;> cases h <;> rfl

/-- Settles O26: the registers and streams that the five byte-level operations leave unwritten, one clause each. -/
theorem frameOfTrackerOperations : Obligations.FrameOfTrackerOperations := by
  intro b s t
  refine ⟨?_, ?_, ?_, ?_, ?_⟩
  · rintro (h | h | h | h | h) <;> cases h <;> exact ⟨rfl, rfl⟩
  · intro h
    cases h
    rfl
  · rintro (h | h) <;> cases h <;> exact ⟨rfl, rfl⟩
  · rintro (h | h) <;> cases h <;> rfl
  · rintro (h | h | h) <;> cases h <;> rfl

/-- Settles O35: the Sample step always answers, and each of its cases leaves `STROBE` at the level. -/
theorem strobeFollowsCrx : Obligations.StrobeFollowsCrx := by
  intro m x s
  obtain ⟨t, ht⟩ := takeSample_next m x s
  refine ⟨t, ht, ?_⟩
  rw [(sampleStep_of_takeSample ht).strobe_eq]
  cases crx m x <;> simp

/-! ## The shift, the one-bit drop and the cursor as arithmetic -/

/-- The shift of 41_byte_assembler.md R82 is the library's: one bit enters from the right, the width stays. -/
theorem shiftIn_eq_shiftConcat (a : Byte) (d : Bool) : shiftIn a d = a.shiftConcat d := by
  apply BitVec.eq_of_getLsbD_eq
  intro i hi
  rw [BitVec.getLsbD_shiftConcat]
  cases i with
  | zero => simp [shiftIn]
  | succ j => simp [shiftIn, hi, BitVec.getLsbD_eq_getElem (show j < 8 by omega)]

theorem shiftIn_toNat (a : Byte) (d : Bool) : (shiftIn a d).toNat = (2 * a.toNat + d.toNat) % 256 := by
  rw [shiftIn_eq_shiftConcat, BitVec.toNat_shiftConcat, Nat.shiftLeft_eq, pow_one, Nat.mul_comm]

/-- No set bit is lost from an accumulator that holds fewer than eight bits. -/
theorem shiftIn_toNat_of_lt {a : Byte} {k : Nat} (d : Bool) (hk : k < 8) (ha : a.toNat < 2 ^ k) :
    (shiftIn a d).toNat = 2 * a.toNat + d.toNat := by
  rw [shiftIn_eq_shiftConcat, BitVec.toNat_shiftConcat_eq_of_lt hk ha, Nat.mul_comm]

theorem dropBit_acc_lt (b : Byte) : (b &&& 0x7F).toNat < 2 ^ 7 := by
  rw [BitVec.toNat_and]
  exact Nat.and_lt_two_pow _ (by decide)

/-- The cursor advance of 42_sync_tracker.md R97 as a remainder. -/
theorem nextCursor_val (c : Cursor) : (nextCursor c).val = (c.val + 1) % 192 := by
  obtain h | h : c.val = 191 ∨ c.val < 191 := by
    have hlt : c.val < 192 := c.isLt
    omega
  · rw [nextCursor_wraps c h, h]
    rfl
  · rw [nextCursor_succ c h]
    omega

/-- Settles O29: the shift is the library's `shiftConcat`, whose bits and value are known. -/
theorem shiftIsDoublingModulo256 : Obligations.ShiftIsDoublingModulo256 := by
  refine ⟨fun a d => ⟨shiftIn_toNat a d, ?_, fun i hi => ?_⟩, fun s d hInv => ?_⟩
  · simp only [shiftIn_eq_shiftConcat, BitVec.getLsbD_shiftConcat]
    rfl
  · simp [shiftIn_eq_shiftConcat, BitVec.getLsbD_eq_getElem (show i < 8 by omega), Nat.add_lt_add_iff_right.mpr hi]
  · exact shiftIn_toNat_of_lt d s.cnt.isLt hInv.1

/-! ## The invariant of 10_state.md R21 -/

/-- Settles O1, field by field. -/
theorem resetLeavesRegistersAndNoOutput : Obligations.ResetLeavesRegistersAndNoOutput :=
  ⟨rfl, rfl, rfl, rfl, rfl, rfl, rfl, rfl, rfl⟩

/-- Settles O2: at reset `ACC` is 0 and so is `CUR`. -/
theorem resetMeetsInvariant : Obligations.ResetMeetsInvariant := ⟨by decide, fun _ => rfl⟩

/-- A completed byte restarts `ACC` and `CNT` within the bound; `CUR` is already 0 where the tracker goes on hunting. -/
theorem ByteStep.inv {b : Byte} {s t : State} (h : ByteStep b s t) (hcur : s.sync = .unsynchronized → s.cur = 0) :
    t.Inv := by
  cases h with
  | payload hs hc => exact ⟨by simp, by simp [hs]⟩
  | acquire hs hb => exact ⟨by simp, by simp⟩
  | confirm hs hc hb => exact ⟨by simp, by simp⟩
  | lose hs hc hb => exact ⟨dropBit_acc_lt b, fun _ => Fin.ext hc⟩
  | slide hs hb => exact ⟨dropBit_acc_lt b, fun _ => hcur hs⟩

/-- A shift doubles `ACC` and adds a bit while `CNT` grows by one; a completed byte is `ByteStep.inv`. -/
theorem FallStep.inv {d : Bool} {s t : State} (h : FallStep d s t) (hInv : s.Inv) : t.Inv := by
  obtain ⟨hacc, hcur⟩ := hInv
  cases h with
  | shift c hc =>
    refine ⟨?_, hcur⟩
    have hval := shiftIn_toNat_of_lt d s.cnt.isLt hacc
    have hd := Bool.toNat_le d
    simp only [State.setAccCnt_acc, State.setAccCnt_cnt, hval, hc, pow_succ]
    omega
  | complete t hc hb => exact hb.inv hcur

theorem SampleStep.inv {m : Masks} {x : Sample} {s t : State} (h : SampleStep m x s t) (hInv : s.Inv) : t.Inv := by
  cases h with
  | quiet hq => exact hInv
  | fall t hs hx hf => exact hf.inv hInv

theorem runCycle_inv {m : Masks} {c : Cycle} {s t : State} (h : runCycle m c s = .next t) (hInv : s.Inv) :
    t.Inv := by
  rcases runCycle_cases h with ⟨-, rfl⟩ | ⟨-, -, rfl⟩ | ⟨-, -, hx⟩
  · exact resetMeetsInvariant
  · exact hInv
  · exact (sampleStep_of_takeSample hx).inv hInv

/-- Settles O39: reset meets the invariant, a cycle without a Sample holds the registers, and a Sample keeps it. -/
theorem stepKeepsInvariant : Obligations.StepKeepsInvariant := by
  intro s t hInv h
  rw [step, stepWith_eq_runCycle] at h
  exact runCycle_inv h hInv

/-! ## Noninterference: what an operation does to the decoder depends on the decoder alone (10_state.md R23) -/

/-- The five registers decide the two flags, and so the operation a Sample selects. -/
theorem operation_congr {s s' : State} (h : s.toDecoder = s'.toDecoder) (m : Masks) (x : Sample) :
    s.operation m x = s'.operation m x := by
  unfold State.operation State.sampleWord
  rw [h]

/-- Where both outcomes answer, they agree on the registers and on the record. -/
def SameResult (o o' : Host.Outcome State Fault Refusal) : Prop :=
  ∀ t t', o = .next t → o' = .next t' → t.toDecoder = t'.toDecoder ∧ t.out = t'.out

theorem sameResult_next {t t' : State} (hd : t.toDecoder = t'.toDecoder) (ho : t.out = t'.out) :
    SameResult (.next t) (.next t') := by
  intro u u' hu hu'
  cases hu
  cases hu'
  exact ⟨hd, ho⟩

theorem execComplete_sameResult (b : Byte) {s s' : State} (h : s.toDecoder = s'.toDecoder) :
    SameResult (execComplete b s) (execComplete b s') := by
  unfold execComplete
  rw [h]
  split_ifs <;> exact sameResult_next (by simp [h]) rfl

theorem execFall_sameResult (d : Bool) {s s' : State} (h : s.toDecoder = s'.toDecoder) :
    SameResult (execFall d s) (execFall d s') := by
  unfold execFall
  simp only [h]
  split
  · exact sameResult_next (by simp [h]) rfl
  · exact execComplete_sameResult _ (by simp [h])

theorem takeSample_sameResult (m : Masks) (x : Sample) {s s' : State} (h : s.toDecoder = s'.toDecoder) :
    SameResult (takeSample m x s) (takeSample m x s') := by
  unfold takeSample
  rw [operation_congr h, operation_eq]
  split
  · exact sameResult_next h rfl
  · exact sameResult_next (by simp [h]) rfl
  · exact sameResult_next h rfl
  · exact execFall_sameResult _ h

theorem runCycle_sameResult (m : Masks) (c : Cycle) {s s' : State} (h : s.toDecoder = s'.toDecoder) :
    SameResult (runCycle m c s) (runCycle m c s') := by
  unfold runCycle
  split_ifs
  · exact sameResult_next rfl rfl
  · exact takeSample_sameResult m _ h
  · exact sameResult_next h rfl

/-- Fed the same Samples, equal registers end equal and show the same records. -/
theorem feed_sameResult {m : Masks} {xs : List Sample} {s s' t t' : State} {rs rs' : List OutRec}
    (hd : s.toDecoder = s'.toDecoder) (h : feed m xs s = .next (t, rs)) (h' : feed m xs s' = .next (t', rs')) :
    t.toDecoder = t'.toDecoder ∧ rs = rs' := by
  induction xs generalizing s s' rs rs' with
  | nil =>
    cases h
    cases h'
    exact ⟨hd, rfl⟩
  | cons x xs ih =>
    obtain ⟨u, qs, hx, hxs, rfl⟩ := feed_cons_inv _ _ _ _ _ _ h
    obtain ⟨u', qs', hx', hxs', rfl⟩ := feed_cons_inv _ _ _ _ _ _ h'
    obtain ⟨hu, hout⟩ := takeSample_sameResult m x hd u u' hx hx'
    obtain ⟨ht, hqs⟩ := ih hu hxs hxs'
    exact ⟨ht, by rw [hout, hqs]⟩

theorem sameInputs_iff {s s' : State} :
    State.SameInputs s s' ↔ s.toDecoder = s'.toDecoder ∧ s.input = s'.input := by
  obtain ⟨⟨_, _, _, _, _⟩, _, _, _, _⟩ := s
  obtain ⟨⟨_, _, _, _, _⟩, _, _, _, _⟩ := s'
  simp [State.SameInputs, and_assoc]

theorem stepWith_sameResult (m : Masks) {s s' : State} (h : State.SameInputs s s') :
    SameResult (stepWith m s) (stepWith m s') := by
  obtain ⟨hd, hi⟩ := sameInputs_iff.mp h
  rw [stepWith_eq_runCycle, stepWith_eq_runCycle, hi]
  exact runCycle_sameResult m _ hd

/-- Settles O42: both states run the same cycle, whose effect depends on the registers alone; a chunk goes by
induction. -/
theorem stepReadsOnlyRegistersAndInput : Obligations.StepReadsOnlyRegistersAndInput := by
  refine ⟨fun s s' t t' hsame h h' => ?_, fun m xs s s' t t' rs rs' hd h h' => ?_⟩
  · obtain ⟨hd, hout⟩ := stepWith_sameResult _ hsame t t' h h'
    have hin : t.input = t'.input := by
      rw [stepWith_input_eq h, stepWith_input_eq h', (sameInputs_iff.mp hsame).2]
    exact ⟨sameInputs_iff.mpr ⟨hd, hin⟩, hout⟩
  · obtain ⟨hd', hrs⟩ := feed_sameResult hd h h'
    exact ⟨hd', hrs, feed_input_eq h, feed_input_eq h'⟩

/-! ## Runs: an induction over the recovered bits (40_bit_sampler.md R74) -/

/-- One Sample delivers a bit exactly at a falling edge. -/
theorem recoveredBits_cons (m : Masks) (v : Strobe) (x : Sample) (xs : List Sample) :
    recoveredBits m v (x :: xs) =
      (if v = .asserted ∧ crx m x = false then [drx m x] else []) ++
        recoveredBits m (strobeOfLevel (crx m x)) xs := by
  cases v <;> cases hx : crx m x <;> simp [recoveredBits, hx]

/-- A property of the bits delivered so far and the state holds after every chunk when `STROBE` and the record do not
matter to it and every falling edge keeps it with one more bit. -/
theorem feed_bits_induction {P : List Bool → State → Prop} {m : Masks}
    (quiet : ∀ ds s v, P ds s → P ds (s.clearOut.setStrobe v))
    (fall : ∀ ds s d t, P ds s → FallStep d s t → P (ds ++ [d]) t)
    {xs : List Sample} {ds : List Bool} {s t : State} {rs : List OutRec}
    (hs : P ds s) (h : feed m xs s = .next (t, rs)) : P (ds ++ recoveredBits m s.strobe xs) t := by
  induction xs generalizing ds s rs with
  | nil =>
    cases h
    simpa [recoveredBits] using hs
  | cons x xs ih =>
    obtain ⟨u, qs, hx, hxs, -⟩ := feed_cons_inv _ _ _ _ _ _ h
    have hstep := sampleStep_of_takeSample hx
    rw [recoveredBits_cons, ← hstep.strobe_eq, ← List.append_assoc]
    refine ih ?_ hxs
    cases hstep with
    | quiet hq =>
      rw [if_neg hq, List.append_nil]
      exact quiet ds s _ hs
    | fall u hv hx hf =>
      rw [if_pos ⟨hv, hx⟩]
      exact fall ds s _ u hs hf

/-- The cursor is the number of emitted bytes modulo 192, and 0 while hunting. -/
def State.CursorCountsBytes (s : State) : Prop :=
  s.bytes.length % 192 = s.cur.val ∧ (s.sync = .unsynchronized → s.cur = 0)

theorem ByteStep.cursorCountsBytes {b : Byte} {s t : State} (h : ByteStep b s t) (hs : s.CursorCountsBytes) :
    t.CursorCountsBytes := by
  obtain ⟨hlen, hcur⟩ := hs
  cases h with
  | payload hs hc =>
    refine ⟨?_, by simp [hs]⟩
    simp [nextCursor_val, ← hlen]
  | acquire hs hb =>
    have hzero : s.cur.val = 0 := by rw [hcur hs]; rfl
    refine ⟨?_, by simp⟩
    simp [Nat.add_mod, hlen, hzero]
  | confirm hs hc hb =>
    refine ⟨?_, by simp⟩
    simp [Nat.add_mod, hlen, hc]
  | lose hs hc hb => exact ⟨hlen, fun _ => Fin.ext hc⟩
  | slide hs hb => exact ⟨hlen, fun _ => hcur hs⟩

theorem FallStep.cursorCountsBytes {d : Bool} {s t : State} (h : FallStep d s t) (hs : s.CursorCountsBytes) :
    t.CursorCountsBytes := by
  cases h with
  | shift c hc => exact hs
  | complete t hc hb => exact hb.cursorCountsBytes hs

/-- Settles O57: reset has sent nothing with the cursor at 0, and every falling edge keeps the count. -/
theorem emittedByteCountIsCursorModulo192 : Obligations.EmittedByteCountIsCursorModulo192 := by
  intro m xs t rs h
  have hreset : State.reset.CursorCountsBytes := ⟨rfl, fun _ => rfl⟩
  obtain ⟨hlen, hcur⟩ : t.CursorCountsBytes :=
    feed_bits_induction (P := fun _ s => s.CursorCountsBytes) (ds := []) (fun _ _ _ hs => hs)
      (fun _ _ _ _ hs hf => hf.cursorCountsBytes hs) hreset h
  exact ⟨hlen, fun hs => by rw [hlen, hcur hs]; rfl⟩

/-- With the bits ds delivered: before eight of them they are all in the accumulator and nothing has been sent; from
eight on, hunting stands at the count 7. -/
def State.HuntsAfter (ds : List Bool) (s : State) : Prop :=
  (ds.length < 8 → s.cnt.val = ds.length ∧ s.bytes = [] ∧ s.events = []) ∧
  (8 ≤ ds.length → s.sync = .unsynchronized → s.cnt = 7)

/-- A completed byte leaves the tracker hunting only by a rejection, which keeps seven bits. -/
theorem ByteStep.cnt_of_unsynchronized {b : Byte} {s t : State} (h : ByteStep b s t)
    (ht : t.sync = .unsynchronized) : t.cnt = 7 := by
  cases h with
  | payload hs hc => simp [hs] at ht
  | acquire hs hb => simp at ht
  | confirm hs hc hb => simp at ht
  | lose hs hc hb => rfl
  | slide hs hb => rfl

theorem FallStep.huntsAfter {d : Bool} {s t : State} {ds : List Bool} (h : FallStep d s t)
    (hs : s.HuntsAfter ds) : t.HuntsAfter (ds ++ [d]) := by
  obtain ⟨hfew, hmany⟩ := hs
  unfold State.HuntsAfter
  rw [List.length_append, List.length_singleton]
  cases h with
  | shift c hc =>
    have hlt := c.isLt
    refine ⟨fun hlen => ?_, fun hlen hsync => ?_⟩
    · obtain ⟨hcnt, hbytes, hevents⟩ := hfew (by omega)
      exact ⟨by rw [State.setAccCnt_cnt, hc, hcnt], hbytes, hevents⟩
    · have hseven : s.cnt.val = 7 := by
        by_cases hlen' : ds.length < 8
        · have := (hfew hlen').1
          omega
        · exact congrArg Fin.val (hmany (by omega) hsync)
      omega
  | complete t hc hb =>
    refine ⟨fun hlen => ?_, fun _ hsync => hb.cnt_of_unsynchronized hsync⟩
    have := (hfew (by omega)).1
    omega

/-- Settles O58: reset has delivered no bit with the count at 0, and every falling edge keeps `State.HuntsAfter`. -/
theorem huntingTestsEveryBit : Obligations.HuntingTestsEveryBit := by
  intro m xs t rs h
  have hreset : State.reset.HuntsAfter [] := ⟨fun _ => ⟨rfl, rfl, rfl⟩, by simp⟩
  obtain ⟨hfew, hmany⟩ : t.HuntsAfter (recoveredBits m .idle xs) :=
    feed_bits_induction (P := fun ds s => s.HuntsAfter ds) (fun _ _ _ hs => hs)
      (fun _ _ _ _ hs hf => hf.huntsAfter hs) hreset h
  exact ⟨fun hlen => (hfew hlen).2, hmany⟩

/-! ## Construction (10_state.md R19) -/

/-- The bit trick `x & (x - 1) = 0` finds exactly the words with one bit set. -/
theorem oneHot_iff (x : Sample) : oneHot x = true ↔ ∃ i < 8, x = BitVec.twoPow 8 i := by
  revert x
  decide

theorem twoPow_ne_twoPow_iff {i j : Nat} (hi : i < 8) :
    BitVec.twoPow 8 i ≠ BitVec.twoPow 8 j ↔ i ≠ j := by
  refine not_congr ⟨fun h => ?_, congrArg _⟩
  have hbit := congrArg (fun w => w.getLsbD i) h
  simpa [BitVec.getLsbD_twoPow, hi, eq_comm] using hbit

theorem masksLegal_iff (m : Masks) :
    masksLegal m = true ↔
      ∃ i < 8, ∃ j < 8, i ≠ j ∧ m.drx = BitVec.twoPow 8 i ∧ m.crx = BitVec.twoPow 8 j := by
  simp only [masksLegal, Bool.and_eq_true, bne_iff_ne, oneHot_iff]
  constructor
  · rintro ⟨⟨⟨i, hi, hdrx⟩, ⟨j, hj, hcrx⟩⟩, hne⟩
    rw [hdrx, hcrx, twoPow_ne_twoPow_iff hi] at hne
    exact ⟨i, hi, j, hj, hne, hdrx, hcrx⟩
  · rintro ⟨i, hi, j, hj, hij, hdrx, hcrx⟩
    refine ⟨⟨⟨i, hi, hdrx⟩, ⟨j, hj, hcrx⟩⟩, ?_⟩
    rwa [hdrx, hcrx, twoPow_ne_twoPow_iff hi]

/-- Settles O60: `construct` tests `masksLegal`, which is the condition of the statement. -/
theorem constructionNeedsOneHotMasks : Obligations.ConstructionNeedsOneHotMasks := by
  intro m
  rw [← masksLegal_iff]
  exact ⟨fun h => if_pos h, fun h => if_neg h⟩

end Sys2Proof.Machine

/-! # Proofs: the input and output streams

What a step sends is said once: it sends nothing, or it is one completed byte. A run of bits is `State.afterBits`, the
falling edges one after the other; the streams in the shortest spelling reach it exactly, and every other stream up to
what decoding ignores. -/

namespace Sys2Proof.Machine

/-! ## The step is total -/

theorem runCycle_next (m : Masks) (c : Cycle) (s : State) : ∃ t, runCycle m c s = .next t := by
  unfold runCycle
  split_ifs
  · exact ⟨_, rfl⟩
  · exact takeSample_next m _ s
  · exact ⟨_, rfl⟩

/-- Settles O40: a step is one clock cycle, and every clock cycle answers. -/
theorem stepAlwaysAnswersNext : Obligations.StepAlwaysAnswersNext := by
  intro s
  rw [step, stepWith_eq_runCycle]
  exact runCycle_next _ _ _

/-! ## A Sample at the level of `STROBE` -/

/-- Without an edge of CRX the step only clears the record (R70, R72). -/
theorem takeSample_of_strobe_eq {m : Masks} {x : Sample} {s : State} (h : s.strobe = strobeOfLevel (crx m x)) :
    takeSample m x s = .next s.clearOut := by
  rcases takeSample_cases m x s with ⟨-, -, e⟩ | ⟨hs, hx, -⟩ | ⟨-, -, e⟩ | ⟨hs, hx, -⟩
  · exact e
  · simp [hs, hx] at h
  · exact e
  · simp [hs, hx] at h

/-- Settles O36: the first Sample leaves `STROBE` at its level, which is the second one's. -/
theorem repeatedSampleDoesNothing : Obligations.RepeatedSampleDoesNothing := by
  intro m x y s t hxy h
  exact takeSample_of_strobe_eq ((sampleStep_of_takeSample h).strobe_eq.trans (by rw [hxy]))

/-! ## What one step sends -/

/-- Nothing is sent: the record is all zero and the two streams are as they were. -/
def State.SilentTo (s t : State) : Prop :=
  t.out = OutRec.none ∧ t.bytes = s.bytes ∧ t.events = s.events

theorem FallStep.silent_or_byteStep {d : Bool} {s t : State} (h : FallStep d s t) :
    s.SilentTo t ∨ ∃ b, ByteStep b (s.setStrobe .idle) t := by
  cases h with
  | shift c hc => exact .inl ⟨rfl, rfl, rfl⟩
  | complete t hc hb => exact .inr ⟨_, hb⟩

theorem SampleStep.silent_or_byteStep {m : Masks} {x : Sample} {s t : State} (h : SampleStep m x s t) :
    s.SilentTo t ∨ ∃ b, ByteStep b (s.setStrobe .idle) t := by
  cases h with
  | quiet hq => exact .inl ⟨rfl, rfl, rfl⟩
  | fall t hs hx hf => exact hf.silent_or_byteStep

theorem runCycle_silent_or_byteStep {m : Masks} {c : Cycle} {s t : State} (h : runCycle m c s = .next t) :
    s.SilentTo t ∨ ∃ b, ByteStep b (s.setStrobe .idle) t := by
  rcases runCycle_cases h with ⟨-, rfl⟩ | ⟨-, -, rfl⟩ | ⟨-, -, hx⟩
  · exact .inl ⟨rfl, rfl, rfl⟩
  · exact .inl ⟨rfl, rfl, rfl⟩
  · exact (sampleStep_of_takeSample hx).silent_or_byteStep

/-- The record of a completed byte is one of the kinds of 20_memory.md R34. -/
theorem ByteStep.out_legal {b : Byte} {s t : State} (h : ByteStep b s t) : t.out.Legal := by
  cases h with
  | payload hs hc => exact .inr (.inl ⟨rfl, rfl, rfl, rfl⟩)
  | acquire hs hb => exact .inr (.inr (.inl ⟨rfl, hb, rfl, rfl, rfl⟩))
  | confirm hs hc hb => exact .inr (.inl ⟨rfl, rfl, rfl, rfl⟩)
  | lose hs hc hb => exact .inr (.inr (.inr ⟨rfl, rfl, rfl, rfl⟩))
  | slide hs hb => exact .inr (.inr (.inr ⟨rfl, rfl, rfl, rfl⟩))

/-- The event bits of a legal record (30_encoding.md R57): only `SyncLost` beside `ByteRejected` is left open by the kind. -/
theorem OutRec.Legal.ev_cases {r : OutRec} (h : r.Legal) :
    r.ev = 0b000 ∨ r.ev = 0b001 ∨ r.ev = 0b100 ∨ r.ev = 0b110 := by
  rcases h with rfl | ⟨-, ha, hl, hr⟩ | ⟨-, -, ha, hl, hr⟩ | ⟨-, -, ha, hr⟩
  · exact .inl rfl
  · simp [OutRec.ev, ha, hl, hr]
  · simp [OutRec.ev, ha, hl, hr]
  · cases hl : r.evLost <;> simp [OutRec.ev, ha, hl, hr]

/-- Settles O38: a step sends nothing or completes a byte, whose record is legal. -/
theorem onlySixKindsOfRecord : Obligations.OnlySixKindsOfRecord := by
  intro s t h
  rw [step, stepWith_eq_runCycle] at h
  have hlegal : t.out.Legal := by
    rcases runCycle_silent_or_byteStep h with ⟨hout, -, -⟩ | ⟨b, hb⟩
    · exact .inl hout
    · exact hb.out_legal
  exact ⟨hlegal, hlegal.ev_cases⟩

/-- The streams of t are those of s followed by what t's record says (20_memory.md R33, R34). -/
def State.GrowsByRecord (s t : State) : Prop :=
  t.bytes = s.bytes ++ t.out.byteList ∧ t.events = s.events ++ t.out.eventList

theorem State.SilentTo.growsByRecord {s t : State} (h : s.SilentTo t) : s.GrowsByRecord t := by
  obtain ⟨hout, hbytes, hevents⟩ := h
  simp [State.GrowsByRecord, hout, hbytes, hevents, OutRec.none, OutRec.byteList, OutRec.eventList]

theorem ByteStep.growsByRecord {b : Byte} {s t : State} (h : ByteStep b s t) : s.GrowsByRecord t := by
  cases h with
  | payload hs hc => exact ⟨rfl, by simp [OutRec.eventList, OutRec.none]⟩
  | acquire hs hb => exact ⟨rfl, rfl⟩
  | confirm hs hc hb => exact ⟨rfl, by simp [OutRec.eventList, OutRec.none]⟩
  | lose hs hc hb => exact ⟨by simp [OutRec.byteList, OutRec.raise, OutRec.none], by
      simp [OutRec.eventList, OutRec.raise, OutRec.none]⟩
  | slide hs hb => exact ⟨by simp [OutRec.byteList, OutRec.raise, OutRec.none], rfl⟩

theorem FallStep.growsByRecord {d : Bool} {s t : State} (h : FallStep d s t) : s.GrowsByRecord t := by
  rcases h.silent_or_byteStep with hsilent | ⟨b, hb⟩
  · exact hsilent.growsByRecord
  · exact hb.growsByRecord

/-- Settles O41: a step sends nothing or completes a byte, and either way the record is what the streams gain. -/
theorem streamsGrowByTheRecord : Obligations.StreamsGrowByTheRecord := by
  intro s t h
  rw [step, stepWith_eq_runCycle] at h
  rcases runCycle_silent_or_byteStep h with hsilent | ⟨b, hb⟩
  · exact hsilent.growsByRecord
  · exact hb.growsByRecord

/-! ## Runs of bits: one falling edge after the other -/

/-- The state that a falling edge with the bit d leaves. -/
def State.afterBit (s : State) (d : Bool) : State :=
  match execFall d s with
  | .next t => t
  | .fault _ => s
  | .refused _ => s

/-- The state that falling edges with the bits ds leave. -/
def State.afterBits (s : State) (ds : List Bool) : State := ds.foldl State.afterBit s

@[simp] theorem State.afterBits_nil (s : State) : s.afterBits [] = s := rfl

@[simp] theorem State.afterBits_cons (s : State) (d : Bool) (ds : List Bool) :
    s.afterBits (d :: ds) = (s.afterBit d).afterBits ds := rfl

theorem State.afterBits_append (s : State) (ds es : List Bool) :
    s.afterBits (ds ++ es) = (s.afterBits ds).afterBits es := List.foldl_append

theorem afterBit_of_execFall {d : Bool} {s t : State} (h : execFall d s = .next t) : s.afterBit d = t := by
  rw [State.afterBit, h]

theorem execFall_eq_afterBit (d : Bool) (s : State) : execFall d s = .next (s.afterBit d) := by
  obtain ⟨t, ht⟩ := exec_next (.fall d) s
  rw [afterBit_of_execFall ht]
  exact ht

theorem fallStep_afterBit (d : Bool) (s : State) : FallStep d s (s.afterBit d) :=
  fallStep_of_execFall (execFall_eq_afterBit d s)

theorem ByteStep.execComplete_eq {b : Byte} {s t : State} (h : ByteStep b s t) : execComplete b s = .next t := by
  unfold execComplete
  cases h with
  | payload hs hc => rw [if_pos ⟨hs, hc⟩]; rfl
  | acquire hs hb => simp [hs, (syncMatch_iff b).mpr hb, execAcquire]
  | confirm hs hc hb => simp [hs, hc, (syncMatch_iff b).mpr hb, execConfirm]
  | lose hs hc hb => simp [hs, hc, (syncMatch_eq_false_iff b).mpr hb, execLose]
  | slide hs hb => simp [hs, (syncMatch_eq_false_iff b).mpr hb, execSlide]

/-- The falling edge has one outcome. -/
theorem FallStep.eq_afterBit {d : Bool} {s t : State} (h : FallStep d s t) : t = s.afterBit d := by
  symm
  apply afterBit_of_execFall
  cases h with
  | shift c hc =>
    have hlt := c.isLt
    rw [execFall, dif_pos (by omega)]
    rw [show (⟨s.cnt.val + 1, by omega⟩ : Count) = c from Fin.ext hc.symm]
    rfl
  | complete t hc hb => rw [execFall, dif_neg (by omega), hb.execComplete_eq]

/-- A falling edge writes `STROBE` and the record whatever they were. -/
theorem execFall_setStrobe (d : Bool) (s : State) (v : Strobe) : execFall d (s.setStrobe v) = execFall d s := rfl

theorem execFall_clearOut (d : Bool) (s : State) : execFall d s.clearOut = execFall d s := rfl

/-- `COMPLETE` writes `ACC`, `CNT` and the record whatever they were. -/
theorem execComplete_clearOut_setAccCnt (b a : Byte) (c : Count) (s : State) :
    execComplete b (s.clearOut.setAccCnt a c) = execComplete b s := rfl

/-- The bits that fill the accumulator up to eight are `COMPLETE` on what they shift into it. -/
theorem execComplete_eq_afterBits {ds : List Bool} {s : State} (h : s.cnt.val + ds.length = 8) :
    execComplete (ds.foldl shiftIn s.acc) (s.setStrobe .idle) = .next (s.afterBits ds) := by
  induction ds generalizing s with
  | nil =>
    have hlt := s.cnt.isLt
    rw [List.length_nil] at h
    omega
  | cons d ds ih =>
    rw [List.length_cons] at h
    rcases execFall_cases d s with ⟨c, hc, e⟩ | ⟨hc, e⟩
    · rw [State.afterBits_cons, afterBit_of_execFall e, ← ih (by simp only [State.setAccCnt_cnt]; omega)]
      exact (execComplete_clearOut_setAccCnt _ (shiftIn s.acc d) c (s.setStrobe .idle)).symm
    · obtain rfl : ds = [] := List.eq_nil_of_length_eq_zero (by omega)
      exact e.symm.trans (execFall_eq_afterBit d s)

/-! ## Streams in the shortest spelling -/

/-- `BIT d` before a stream is one falling edge with d. -/
theorem feed_bitStream_append {d : Bool} {xs : List Sample} {s t : State} {rs : List OutRec}
    (hs : s.strobe = .idle) (h : feed Config.masks xs (s.afterBit d) = .next (t, rs)) :
    ∃ qs, feed Config.masks (bitStream d ++ xs) s = .next (t, qs) := by
  have hrise : takeSample Config.masks (symbol true d) s = .next (s.clearOut.setStrobe .asserted) := by
    rw [takeSample, operation_eq, hs, crx_symbol]
    rfl
  have hfall : takeSample Config.masks (symbol false d) (s.clearOut.setStrobe .asserted) =
      .next (s.afterBit d) := by
    rw [takeSample, operation_eq, crx_symbol, drx_symbol, ← execFall_eq_afterBit, ← execFall_clearOut d s]
    exact execFall_setStrobe d s.clearOut .asserted
  exact ⟨_, feed_cons_eq _ _ _ _ _ _ _ hrise (feed_cons_eq _ _ _ _ _ _ _ hfall h)⟩

theorem feed_bitsStream (ds : List Bool) {s : State} (hs : s.strobe = .idle) :
    ∃ rs, feed Config.masks (bitsStream ds) s = .next (s.afterBits ds, rs) := by
  induction ds generalizing s with
  | nil => exact ⟨[], rfl⟩
  | cons d ds ih =>
    obtain ⟨rs, hrest⟩ := ih (fallStep_afterBit d s).strobe_eq
    exact feed_bitStream_append hs hrest

/-- Shifting in a bit list is reading it as a binary number after the old value, modulo 256. -/
theorem foldl_shiftIn_toNat (a : Byte) (ds : List Bool) :
    (ds.foldl shiftIn a).toNat = ds.foldl (fun v d => 2 * v + d.toNat) a.toNat % 256 := by
  induction ds using List.reverseRecOn with
  | nil => exact (Nat.mod_eq_of_lt a.isLt).symm
  | append_singleton ds d ih =>
    rw [List.foldl_concat, List.foldl_concat, shiftIn_toNat, ih]
    omega

/-- Settles O28: eight bits from the count 0 are `COMPLETE` on their value; what the accumulator held is shifted out. -/
theorem bitsEnterMostSignificantFirst : Obligations.BitsEnterMostSignificantFirst := by
  intro s d1 d2 d3 d4 d5 d6 d7 d8 hs hc
  obtain ⟨rs, hfeed⟩ := feed_bitsStream [d1, d2, d3, d4, d5, d6, d7, d8] hs
  refine ⟨_, rs, hfeed, ?_⟩
  have hstate : s.setStrobe .idle = s := by rw [← hs]; rfl
  rw [← execComplete_eq_afterBits (by rw [hc]; rfl), hstate]
  refine congrArg (fun b => execComplete b s) (BitVec.eq_of_toNat_eq ?_)
  rw [foldl_shiftIn_toNat, BitVec.toNat_ofNat]
  simp only [List.foldl_cons, List.foldl_nil]
  omega

/-! ## Whole bytes inside a packet -/

theorem packetStream_eq_bitsStream (vs : List Byte) : packetStream vs = bitsStream (vs.flatMap byteBits) :=
  List.flatMap_assoc.symm

/-- The eight bits of a byte, shifted in one after the other, are the byte. -/
theorem foldl_shiftIn_byteBits (a v : Byte) : (byteBits v).foldl shiftIn a = v := by
  apply BitVec.eq_of_getLsbD_eq
  intro i hi
  simp only [byteBits, List.foldl_cons, List.foldl_nil, shiftIn_eq_shiftConcat, BitVec.getLsbD_shiftConcat]
  interval_cases i <;> simp

/-- `BYTE v` begun at the count 0 is `COMPLETE` on v. -/
theorem byteStep_afterBits_byteBits (v : Byte) {s : State} (hc : s.cnt = 0) :
    ByteStep v (s.setStrobe .idle) (s.afterBits (byteBits v)) := by
  apply byteStep_of_execComplete
  rw [← execComplete_eq_afterBits (by rw [hc]; rfl), foldl_shiftIn_byteBits]

/-- From s to t the bytes vs have been emitted as the payload of a packet, and nothing else has been sent. -/
def State.PassesThrough (s : State) (vs : List Byte) (t : State) : Prop :=
  t.bytes = s.bytes ++ vs ∧ t.events = s.events ∧ t.strobe = .idle ∧ t.acc = 0 ∧ t.cnt = 0 ∧
    t.sync = .synchronized ∧ t.cur.val = (s.cur.val + vs.length) % 192

theorem State.PassesThrough.trans {s t u : State} {vs ws : List Byte} (h : s.PassesThrough vs t)
    (h' : t.PassesThrough ws u) : s.PassesThrough (vs ++ ws) u := by
  obtain ⟨hbytes, hevents, -, -, -, -, hcur⟩ := h
  obtain ⟨hbytes', hevents', hstrobe, hacc, hcnt, hsync, hcur'⟩ := h'
  refine ⟨?_, hevents'.trans hevents, hstrobe, hacc, hcnt, hsync, ?_⟩
  · rw [hbytes', hbytes, List.append_assoc]
  · rw [hcur', hcur, List.length_append]
    omega

/-- Inside a packet `BYTE v` runs `PAYLOAD` on v. -/
theorem passesThrough_byteBits (v : Byte) {s : State} (hc : s.cnt = 0) (hsync : s.sync = .synchronized)
    (hcur : s.cur ≠ 0) : s.PassesThrough [v] (s.afterBits (byteBits v)) := by
  have hval : s.cur.val ≠ 0 := fun h => hcur (Fin.ext h)
  have hpayload := (ByteStep.payload (b := v) (s := s.setStrobe .idle) hsync hval).execComplete_eq
  have hbyte := (byteStep_afterBits_byteBits v hc).execComplete_eq
  rw [← Host.Outcome.next.inj (hpayload.symm.trans hbyte)]
  exact ⟨rfl, rfl, rfl, rfl, rfl, hsync, nextCursor_val s.cur⟩

/-- Up to the packet's end every byte finds the tracker inside the packet. -/
theorem passesThrough_flatMap_byteBits {vs : List Byte} {s : State} (hc : s.cnt = 0)
    (hsync : s.sync = .synchronized) (hcur : s.cur ≠ 0) (hne : vs ≠ []) (hlen : s.cur.val + vs.length ≤ 192) :
    s.PassesThrough vs (s.afterBits (vs.flatMap byteBits)) := by
  induction vs generalizing s with
  | nil => exact absurd rfl hne
  | cons v vs ih =>
    have hfirst := passesThrough_byteBits v hc hsync hcur
    rw [List.flatMap_cons, State.afterBits_append]
    by_cases hvs : vs = []
    · rw [hvs, List.flatMap_nil, State.afterBits_nil]
      exact hfirst
    · have hpos := List.length_pos_iff.mpr hvs
      have ⟨_, _, _, _, hc', hsync', hval'⟩ := hfirst
      rw [List.length_cons] at hlen
      rw [List.length_singleton, Nat.mod_eq_of_lt (by omega)] at hval'
      refine hfirst.trans (ih hc' hsync' (fun h => ?_) hvs (by omega))
      rw [h] at hval'
      exact absurd hval' (Nat.succ_ne_zero _).symm

/-- Settles O50: the stream reaches exactly the state after its bits, in which the bytes have passed through. -/
theorem payloadRunIsEmittedUnchanged : Obligations.PayloadRunIsEmittedUnchanged := by
  intro s vs hs hc hsync hcur hne hlen
  obtain ⟨rs, hfeed⟩ := feed_bitsStream (vs.flatMap byteBits) hs
  rw [packetStream_eq_bitsStream]
  exact ⟨_, rs, hfeed, passesThrough_flatMap_byteBits hc hsync hcur hne hlen⟩

/-! ## Only the recovered bits matter -/

theorem sameDecoding_iff {s t : State} :
    State.SameDecoding s t ↔
      (s.setStrobe .idle).toDecoder = (t.setStrobe .idle).toDecoder ∧ s.bytes = t.bytes ∧ s.events = t.events := by
  simp [State.SameDecoding, and_assoc]

/-- A falling edge does the same to two states that decode alike: the registers and the record agree by
noninterference, and the streams grow by the record. -/
theorem State.SameDecoding.afterBit (d : Bool) {s t : State} (h : State.SameDecoding s t) :
    State.SameDecoding (s.afterBit d) (t.afterBit d) := by
  obtain ⟨hdec, hbytes, hevents⟩ := sameDecoding_iff.mp h
  obtain ⟨hdec', hout⟩ := execFall_sameResult d hdec _ _
    ((execFall_setStrobe d s _).trans (execFall_eq_afterBit d s))
    ((execFall_setStrobe d t _).trans (execFall_eq_afterBit d t))
  obtain ⟨hsb, hse⟩ := (fallStep_afterBit d s).growsByRecord
  obtain ⟨htb, hte⟩ := (fallStep_afterBit d t).growsByRecord
  refine sameDecoding_iff.mpr ⟨?_, ?_, ?_⟩
  · rw [State.setStrobe_toDecoder, State.setStrobe_toDecoder, hdec']
  · rw [hsb, htb, hbytes, hout]
  · rw [hse, hte, hevents, hout]

/-- Whatever spelling delivers the bits, a chunk decodes like the bits alone. -/
theorem feed_sameDecoding_afterBits {m : Masks} {xs : List Sample} {s t : State} {rs : List OutRec}
    (h : feed m xs s = .next (t, rs)) :
    State.SameDecoding t (s.afterBits (recoveredBits m s.strobe xs)) := by
  refine feed_bits_induction (P := fun ds u => State.SameDecoding u (s.afterBits ds)) (ds := [])
    (fun _ _ _ hu => hu) (fun ds u d v hu hf => ?_) ⟨rfl, rfl, rfl, rfl, rfl, rfl⟩ h
  rw [hf.eq_afterBit, State.afterBits_append]
  exact hu.afterBit d

/-- Settles O46: both chunks decode like the bits that both deliver. -/
theorem onlyRecoveredBitsMatter : Obligations.OnlyRecoveredBitsMatter := by
  intro m xs ys s t u rs qs hbits ht hu
  obtain ⟨htd, htb, hte⟩ := sameDecoding_iff.mp (feed_sameDecoding_afterBits ht)
  obtain ⟨hud, hub, hue⟩ := sameDecoding_iff.mp (feed_sameDecoding_afterBits hu)
  rw [hbits] at htd htb hte
  exact sameDecoding_iff.mpr ⟨htd.trans hud.symm, htb.trans hub.symm, hte.trans hue.symm⟩

end Sys2Proof.Machine

/-! # Proofs: the encoding

The operation map of 30_encoding.md R54 and R55 is said once as a relation between decode words and operations, one
constructor per row; `decode` answers exactly its pairs, and the statements about the maps are read off its rows. -/

namespace Sys2Proof.Machine

/-! ## The operation map as a relation -/

/-- The decode word selects the operation: the rows of R54 and R55 with their don't-care bits d, z and m, and the
operands that can occur. -/
inductive Selects : DecodeWord → Instr → Prop
  | nopLow (d : Bool) : Selects (.sample (sampleWord false false d)) .nopLow
  | rise (d : Bool) : Selects (.sample (sampleWord false true d)) .rise
  | nopHigh (d : Bool) : Selects (.sample (sampleWord true true d)) .nopHigh
  | fall (d : Bool) : Selects (.sample (sampleWord true false d)) (.fall d)
  | shift (acc : Byte) (c : Count) : c ≠ 0 → Selects (.bit (BitVec.ofNat 4 c.val) acc) (.shift acc c)
  | complete (acc : Byte) : Selects (.bit 8 acc) (.complete acc)
  | payload (m : Bool) (b : Byte) : Selects (.byte (byteWord true false m) b) (.payload b)
  | acquire (z : Bool) (b : Byte) : IsSyncValue b → Selects (.byte (byteWord false z true) b) (.acquire b)
  | confirm (b : Byte) : IsSyncValue b → Selects (.byte (byteWord true true true) b) (.confirm b)
  | lose (b : Byte) : ¬ IsSyncValue b → Selects (.byte (byteWord true true false) b) (.lose b)
  | slide (z : Bool) (b : Byte) : ¬ IsSyncValue b → Selects (.byte (byteWord false z false) b) (.slide b)

theorem exists_eq_sampleWord (w : BitVec 3) : ∃ t c d, w = sampleWord t c d := by
  revert w
  decide

theorem exists_eq_byteWord (w : BitVec 3) : ∃ y z m, w = byteWord y z m :=
  exists_eq_sampleWord w

/-! ### The three decoders on the words of the map -/

/-- The sample-level map of R54 on the bits of its word. -/
theorem decodeSampleLevel_sampleWord (t c d : Bool) :
    decodeSampleLevel (sampleWord t c d) =
      if t then (if c then .nopHigh else .fall d) else (if c then .rise else .nopLow) := by
  cases t <;> cases c <;> cases d <;> rfl

/-- The bit-level word of a stored count: 0 cannot occur, any other is `SHIFT`. -/
theorem decodeBitLevel_ofNat (acc : Byte) (c : Count) :
    decodeBitLevel (BitVec.ofNat 4 c.val) acc =
      if c = 0 then .error .countZero else .ok (.shift acc c) := by
  have hval : (BitVec.ofNat 4 c.val).toNat = c.val := by
    rw [BitVec.toNat_ofNat]
    omega
  simp only [decodeBitLevel, hval, c.isLt, dite_true, Fin.eta, Fin.ext_iff, Fin.val_zero]

theorem decodeBitLevel_of_gt {w : BitVec 4} (hw : 8 < w.toNat) (acc : Byte) :
    decodeBitLevel w acc = .error .countAboveEight := by
  rw [decodeBitLevel, dif_neg (by omega), if_neg (by omega)]

/-- The byte-level map of R55 on the bits of its word: only `PAYLOAD` leaves m untested. -/
theorem decodeByteLevel_byteWord (y z m : Bool) (b : Byte) :
    decodeByteLevel (byteWord y z m) b =
      if y && !z then .ok (.payload b)
      else if m = syncMatch b then
        .ok (if m then (if y then .confirm b else .acquire b) else (if y then .lose b else .slide b))
      else .error .syncBitMismatch := by
  cases y <;> cases z <;> cases m <;> cases hb : syncMatch b <;> simp [decodeByteLevel, byteWord, hb]

/-! ### `decode` answers exactly the pairs of the map -/

theorem Selects.decode_eq {w : DecodeWord} {i : Instr} (h : Selects w i) : decode w = .ok i := by
  cases h with
  | nopLow d => exact congrArg _ (decodeSampleLevel_sampleWord false false d)
  | rise d => exact congrArg _ (decodeSampleLevel_sampleWord false true d)
  | nopHigh d => exact congrArg _ (decodeSampleLevel_sampleWord true true d)
  | fall d => exact congrArg _ (decodeSampleLevel_sampleWord true false d)
  | shift acc c hc => rw [decode, decodeBitLevel_ofNat, if_neg hc]
  | complete acc => rfl
  | payload m b => simp [decode, decodeByteLevel_byteWord]
  | acquire z b hb => simp [decode, decodeByteLevel_byteWord, (syncMatch_iff b).mpr hb]
  | confirm b hb => simp [decode, decodeByteLevel_byteWord, (syncMatch_iff b).mpr hb]
  | lose b hb => simp [decode, decodeByteLevel_byteWord, (syncMatch_eq_false_iff b).mpr hb]
  | slide z b hb => simp [decode, decodeByteLevel_byteWord, (syncMatch_eq_false_iff b).mpr hb]

/-- Every sample-level word selects an operation. -/
theorem selects_sampleWord (t c d : Bool) :
    Selects (.sample (sampleWord t c d)) (decodeSampleLevel (sampleWord t c d)) := by
  rw [decodeSampleLevel_sampleWord]
  match t, c with
  | false, false => exact .nopLow d
  | false, true => exact .rise d
  | true, true => exact .nopHigh d
  | true, false => exact .fall d

theorem selects_of_decodeBitLevel {w : BitVec 4} {acc : Byte} {i : Instr} (h : decodeBitLevel w acc = .ok i) :
    Selects (.bit w acc) i := by
  rcases lt_trichotomy w.toNat 8 with hlt | heq | hgt
  · obtain ⟨c, rfl⟩ : ∃ c : Count, w = BitVec.ofNat 4 c.val := ⟨⟨w.toNat, hlt⟩, by simp⟩
    rw [decodeBitLevel_ofNat] at h
    split at h
    · cases h
    · cases h
      exact .shift acc c ‹_›
  · obtain rfl : w = 8 := BitVec.eq_of_toNat_eq heq
    cases h
    exact .complete acc
  · rw [decodeBitLevel_of_gt hgt] at h
    cases h

/-- A byte-level word whose m is the sync match of its byte selects an operation. -/
theorem selects_byteWord_syncMatch (y z : Bool) (b : Byte) :
    ∃ i, Selects (.byte (byteWord y z (syncMatch b)) b) i := by
  cases hb : syncMatch b with
  | true =>
    rw [syncMatch_iff] at hb
    match y, z with
    | true, false => exact ⟨_, .payload true b⟩
    | true, true => exact ⟨_, .confirm b hb⟩
    | false, z => exact ⟨_, .acquire z b hb⟩
  | false =>
    rw [syncMatch_eq_false_iff] at hb
    match y, z with
    | true, false => exact ⟨_, .payload false b⟩
    | true, true => exact ⟨_, .lose b hb⟩
    | false, z => exact ⟨_, .slide z b hb⟩

theorem selects_of_decodeByteLevel {w : BitVec 3} {b : Byte} {i : Instr} (h : decodeByteLevel w b = .ok i) :
    Selects (.byte w b) i := by
  obtain ⟨y, z, m, rfl⟩ := exists_eq_byteWord w
  by_cases hm : m = syncMatch b
  · subst hm
    obtain ⟨j, hj⟩ := selects_byteWord_syncMatch y z b
    cases hj.decode_eq.symm.trans h
    exact hj
  · rw [decodeByteLevel_byteWord, if_neg hm] at h
    match y, z with
    | true, false => cases h; exact .payload m b
    | true, true => cases h
    | false, _ => cases h

theorem decode_eq_ok_iff {w : DecodeWord} {i : Instr} : decode w = .ok i ↔ Selects w i := by
  refine ⟨fun h => ?_, Selects.decode_eq⟩
  cases w with
  | sample w =>
    obtain ⟨t, c, d, rfl⟩ := exists_eq_sampleWord w
    cases h
    exact selects_sampleWord t c d
  | bit w acc => exact selects_of_decodeBitLevel h
  | byte w b => exact selects_of_decodeByteLevel h

/-! ### What a selected operation is -/

theorem Selects.level_eq {w : DecodeWord} {i : Instr} (h : Selects w i) : i.level = w.level := by
  cases h <;> rfl

theorem Selects.wellFormed {w : DecodeWord} {i : Instr} (h : Selects w i) : i.wellFormed = true := by
  cases h with
  | shift acc c hc => exact decide_eq_true hc
  | acquire z b hb => exact decide_eq_true hb
  | confirm b hb => exact decide_eq_true hb
  | lose b hb => exact decide_eq_true hb
  | slide z b hb => exact decide_eq_true hb
  | _ => rfl

theorem selects_encode {i : Instr} (h : i.wellFormed = true) : Selects (encode i) i := by
  cases i with
  | nopLow => exact .nopLow false
  | rise => exact .rise false
  | nopHigh => exact .nopHigh false
  | fall d => exact .fall d
  | shift acc c => exact .shift acc c (of_decide_eq_true h)
  | complete b => exact .complete b
  | payload b => exact .payload (syncMatch b) b
  | acquire b => exact .acquire false b (of_decide_eq_true h)
  | confirm b => exact .confirm b (of_decide_eq_true h)
  | lose b => exact .lose b (of_decide_eq_true h)
  | slide b => exact .slide false b (of_decide_eq_true h)

/-- Settles O8: the encoder writes a word that selects the operation, and `decode` answers what a word selects. -/
theorem decodeOfEncodeIsIdentity : Obligations.DecodeOfEncodeIsIdentity :=
  fun _ h => (selects_encode h).decode_eq

/-! ### The rows of the table -/

theorem encode_matches_table (i : Instr) : Laws.EncodeMatchesTable.Statement i := by
  cases i with
  | nopLow => exact Laws.EncodeMatchesTable.nopLow
  | rise => exact Laws.EncodeMatchesTable.rise
  | nopHigh => exact Laws.EncodeMatchesTable.nopHigh
  | fall d => exact Laws.EncodeMatchesTable.fall d
  | shift acc c => exact Laws.EncodeMatchesTable.shift acc c
  | complete b => exact Laws.EncodeMatchesTable.complete b
  | payload b => exact Laws.EncodeMatchesTable.payload b
  | acquire b => exact Laws.EncodeMatchesTable.acquire b
  | confirm b => exact Laws.EncodeMatchesTable.confirm b
  | lose b => exact Laws.EncodeMatchesTable.lose b
  | slide b => exact Laws.EncodeMatchesTable.slide b

/-- A word that selects an operation and the one that the encoder writes differ in don't-care bits alone, which no row
of the table examines. -/
theorem Selects.matchingRows_eq {w : DecodeWord} {i : Instr} (h : Selects w i) :
    matchingRows w = matchingRows (encode i) := by
  have dUnexamined : ∀ t c d, rowsAt .sample ((sampleWord t c d).setWidth 4) =
      rowsAt .sample ((sampleWord t c false).setWidth 4) := by decide
  have zUnexamined : ∀ z m, rowsAt .byte ((byteWord false z m).setWidth 4) =
      rowsAt .byte ((byteWord false false m).setWidth 4) := by decide
  have mUnexamined : ∀ m m', rowsAt .byte ((byteWord true false m).setWidth 4) =
      rowsAt .byte ((byteWord true false m').setWidth 4) := by decide
  cases h with
  | nopLow d => exact dUnexamined false false d
  | rise d => exact dUnexamined false true d
  | nopHigh d => exact dUnexamined true true d
  | payload m b => exact mUnexamined m (syncMatch b)
  | acquire z b hb => exact zUnexamined z true
  | slide z b hb => exact zUnexamined z false
  | _ => rfl

/-- Settles O9: what decodes is selected, so it is well-formed and of the word's level; the encoder's word selects it
too and matches the operation's own row. -/
theorem decodedOperationsAreWellFormed : Obligations.DecodedOperationsAreWellFormed := by
  intro w i h
  have hsel := decode_eq_ok_iff.mp h
  have hwf := hsel.wellFormed
  obtain ⟨-, hrows⟩ := encode_matches_table i hwf
  exact ⟨hwf, hsel.level_eq, hsel.matchingRows_eq.trans hrows, (selects_encode hwf).decode_eq, hrows⟩

/-- Settles O4: the four rows of the map; the row count is that of the eight words. -/
theorem sampleMapGivesEachOperation : Obligations.SampleMapGivesEachOperation := by
  have oneRow : ∀ t c d, (matchingRows (.sample (sampleWord t c d))).length = 1 := by decide
  exact fun d => ⟨(Selects.nopLow d).decode_eq, (Selects.rise d).decode_eq, (Selects.nopHigh d).decode_eq,
    (Selects.fall d).decode_eq, fun t c => oneRow t c d⟩

/-- Settles O5: the rows of the two maps, and the bit-level words outside them. -/
theorem bitAndByteMapsGiveEachOperation : Obligations.BitAndByteMapsGiveEachOperation := by
  have oneRow : ∀ w : BitVec 3, (rowsAt .byte (w.setWidth 4)).length = 1 := by decide
  exact ⟨fun acc c hc => (Selects.shift acc c hc).decode_eq, fun acc => (Selects.complete acc).decode_eq,
    fun acc => decodeBitLevel_ofNat acc 0, fun acc w hw => decodeBitLevel_of_gt hw acc, syncMatch_iff,
    fun b m => (Selects.payload m b).decode_eq,
    fun b z hb => (Selects.acquire z b ((syncMatch_iff b).mp hb)).decode_eq,
    fun b hb => (Selects.confirm b ((syncMatch_iff b).mp hb)).decode_eq,
    fun b hb => (Selects.lose b ((syncMatch_eq_false_iff b).mp hb)).decode_eq,
    fun b z hb => (Selects.slide z b ((syncMatch_eq_false_iff b).mp hb)).decode_eq, fun w _ => oneRow w⟩

/-- Settles O10, word by word. -/
theorem specWordsDecode : Obligations.SpecWordsDecode :=
  ⟨rfl, rfl, rfl, rfl, rfl, rfl, rfl, rfl, rfl⟩

/-! ## The nested operations run what their decode word selects -/

theorem exists_selects_bitWord (s : State) (d : Bool) :
    ∃ i, Selects (.bit s.bitWord (shiftIn s.acc d)) i ∧ execFall d s = exec i (s.setStrobe .idle) := by
  rcases execFall_cases d s with ⟨c, hc, e⟩ | ⟨hc, e⟩
  · have hne : c ≠ 0 := by
      rintro rfl
      exact absurd hc.symm (Nat.succ_ne_zero _)
    rw [State.bitWord, ← hc]
    exact ⟨_, .shift _ c hne, e⟩
  · rw [State.bitWord, hc]
    exact ⟨_, .complete _, e⟩

/-- Settles O6: below the count 7 the word selects `SHIFT`, at it `COMPLETE`. -/
theorem fallRunsTheBitLevelDecoding : Obligations.FallRunsTheBitLevelDecoding := by
  intro s d
  obtain ⟨i, hsel, hexec⟩ := exists_selects_bitWord s d
  exact ⟨i, hsel.decode_eq, hsel.level_eq, hsel.wellFormed, hexec⟩

theorem exists_selects_byteWord (s : State) (b : Byte) :
    ∃ i, Selects (.byte (s.byteWord b) b) i ∧ execComplete b s = exec i s := by
  unfold State.byteWord
  rcases execComplete_cases b s with
    ⟨hs, hc, e⟩ | ⟨hs, hb, e⟩ | ⟨hs, hc, hb, e⟩ | ⟨hs, hc, hb, e⟩ | ⟨hs, hb, e⟩
  · rw [hs, decide_eq_false hc]
    exact ⟨_, .payload _ b, e⟩
  · rw [hs, (syncMatch_iff b).mpr hb]
    exact ⟨_, .acquire _ b hb, e⟩
  · rw [hs, decide_eq_true hc, (syncMatch_iff b).mpr hb]
    exact ⟨_, .confirm b hb, e⟩
  · rw [hs, decide_eq_true hc, (syncMatch_eq_false_iff b).mpr hb]
    exact ⟨_, .lose b hb, e⟩
  · rw [hs, (syncMatch_eq_false_iff b).mpr hb]
    exact ⟨_, .slide _ b hb, e⟩

/-- Settles O7: under each operation's condition the byte-level word selects that operation. -/
theorem completeRunsTheByteLevelDecoding : Obligations.CompleteRunsTheByteLevelDecoding := by
  intro s b
  obtain ⟨i, hsel, hexec⟩ := exists_selects_byteWord s b
  exact ⟨i, hsel.decode_eq, hsel.level_eq, hsel.wellFormed, hexec⟩

/-! ## The two bits that a step reads from a Sample -/

/-- A mask with one bit set reads that bit. -/
theorem and_twoPow_bne_zero (x : Sample) {i : Nat} (hi : i < 8) :
    (x &&& BitVec.twoPow 8 i != 0) = x.getLsbD i := by
  have hne : BitVec.twoPow 8 i ≠ 0#8 := fun h => by
    simpa [BitVec.getLsbD_twoPow, hi] using congrArg (fun w => w.getLsbD i) h
  rw [BitVec.and_twoPow]
  cases x.getLsbD i <;> simp [hne]

theorem crx_masks (x : Sample) : crx Config.masks x = x.getLsbD 1 :=
  and_twoPow_bne_zero x (i := 1) (by decide)

theorem drx_masks (x : Sample) : drx Config.masks x = x.getLsbD 0 :=
  and_twoPow_bne_zero x (i := 0) (by decide)

/-- Settles O3: the masks 0x02 and 0x01 have bit 1 and bit 0 set. -/
theorem sampleBitsAreCrxAndDrx : Obligations.SampleBitsAreCrxAndDrx :=
  fun x => ⟨crx_masks x, drx_masks x⟩

/-- A Sample's step depends on its two levels alone. -/
theorem takeSample_congr {m : Masks} {x y : Sample} (s : State) (hcrx : crx m x = crx m y)
    (hdrx : drx m x = drx m y) : takeSample m x s = takeSample m y s := by
  rw [takeSample, takeSample, operation_eq, operation_eq, hcrx, hdrx]

theorem step_cons (s : State) (c : Cycle) (rest : List Cycle) :
    step { s with input := c :: rest } = runCycle Config.masks c { s with input := rest } := rfl

/-- Settles O37: the mask 0x03 keeps bits 1 and 0, which is all that the cycle reads of its Sample. -/
theorem unusedSampleBitsAreIgnored : Obligations.UnusedSampleBitsAreIgnored := by
  intro s x r v rest
  have hcrx : crx Config.masks x = crx Config.masks (x &&& 0x03) := by simp [crx_masks]
  have hdrx : drx Config.masks x = drx Config.masks (x &&& 0x03) := by simp [drx_masks]
  rw [step_cons, step_cons, runCycle, runCycle, takeSample_congr _ hcrx hdrx]

/-- Settles O11: a presented Sample runs `takeSample`, and every sample-level word decodes. -/
theorem stepRunsTheDecodedOperation : Obligations.StepRunsTheDecodedOperation := by
  intro s x rest hinput
  refine ⟨?_, rfl⟩
  rw [step, stepWith_eq_runCycle, hinput]
  rfl

/-! ## The bits that an encoded stream delivers (30_encoding.md R58) -/

/-- A Sample with CRX high delivers no bit and leaves `STROBE` `Asserted`. -/
theorem recoveredBits_high_cons {m : Masks} {x : Sample} (hx : crx m x = true) (v : Strobe) (xs : List Sample) :
    recoveredBits m v (x :: xs) = recoveredBits m .asserted xs := by
  simp [recoveredBits_cons, hx]

theorem recoveredBits_highs_append {m : Masks} {highs : List Sample} (hhigh : ∀ y ∈ highs, crx m y = true)
    (xs : List Sample) : recoveredBits m .asserted (highs ++ xs) = recoveredBits m .asserted xs := by
  induction highs with
  | nil => rfl
  | cons y ys ih =>
    rw [List.forall_mem_cons] at hhigh
    rw [List.cons_append, recoveredBits_high_cons hhigh.1, ih hhigh.2]

theorem Encodes.recoveredBits_eq {m : Masks} {ds : List Bool} {xs : List Sample} (h : Encodes m ds xs) :
    recoveredBits m .idle xs = ds := by
  induction h with
  | nil => rfl
  | rest x ds xs hx _ ih => simp [recoveredBits_cons, hx, ih]
  | bit highs x ds xs hne hhigh hx _ ih =>
    obtain ⟨y, ys, rfl⟩ := List.exists_cons_of_ne_nil hne
    rw [List.forall_mem_cons] at hhigh
    rw [List.cons_append, recoveredBits_high_cons hhigh.1, recoveredBits_highs_append hhigh.2]
    simp [recoveredBits_cons, hx, ih]

/-- Samples with CRX low alone encode no bit. -/
theorem encodes_replicate_low {m : Masks} {x : Sample} (hx : crx m x = false) (n : Nat) :
    Encodes m [] (List.replicate n x) := by
  induction n with
  | zero => exact .nil
  | succ n ih => exact .rest x [] _ hx ih

/-- `BITn d, h, l` encodes d: the first of its low Samples carries the bit, the others are rests. -/
theorem bitNStream_encodes (d : Bool) {h l : Nat} (hh : 1 ≤ h) (hl : 1 ≤ l) :
    Encodes Config.masks [d] (bitNStream d h l) := by
  obtain ⟨k, rfl⟩ := Nat.exists_eq_add_of_le' hl
  have hbit := Encodes.bit (List.replicate h (symbol true d)) (symbol false d) [] (List.replicate k (symbol false d))
    (by simp [Nat.one_le_iff_ne_zero.mp hh]) (by simp) (crx_symbol false d)
    (encodes_replicate_low (crx_symbol false d) k)
  rwa [drx_symbol] at hbit

/-- Settles O47: by induction on the encoding, and `BITn` is one. -/
theorem encodedStreamsDeliverTheirBits : Obligations.EncodedStreamsDeliverTheirBits :=
  ⟨fun _ _ _ h => h.recoveredBits_eq, fun d _ _ hh hl => bitNStream_encodes d hh hl⟩

end Sys2Proof.Machine

/-! # Proofs: the bit sampler

Family 1 (40_bit_sampler.md R70 to R73): `operation_eq` says which operation a Sample selects, and `FALL` is `SHIFT` or
`COMPLETE` by the stored count alone. -/

namespace Sys2Proof.Machine

/-! ## `FALL` by the stored count (40_bit_sampler.md R73) -/

/-- The accumulator with one more bit, in the words of R73. -/
theorem shiftIn_eq_ofNat (a : Byte) (d : Bool) : shiftIn a d = BitVec.ofNat 8 ((2 * a.toNat + d.toNat) % 256) := by
  rw [← shiftIn_toNat, BitVec.ofNat_toNat, BitVec.setWidth_eq]

theorem execFall_eq_execShift (d : Bool) {s : State} {c : Count} (hc : s.cnt.val + 1 = c.val) :
    execFall d s = execShift (shiftIn s.acc d) c (s.setStrobe .idle) := by
  rcases execFall_cases d s with ⟨c', hc', e⟩ | ⟨hcnt, -⟩
  · rwa [Fin.ext (hc'.trans hc)] at e
  · have hlt := c.isLt
    omega

theorem execFall_eq_execComplete (d : Bool) {s : State} (hcnt : s.cnt = 7) :
    execFall d s = execComplete (shiftIn s.acc d) (s.setStrobe .idle) := by
  rcases execFall_cases d s with ⟨c, hc, -⟩ | ⟨-, e⟩
  · rw [hcnt] at hc
    exact absurd hc c.isLt.ne
  · exact e

/-! ## The four operations of the sample level -/

/-- Settles O17: the count picks the case of `FALL`, and either case leaves `STROBE` as `FALL` set it. -/
theorem fallSamplesOneBit : Obligations.FallSamplesOneBit := by
  refine ⟨fun m s x hs hx => ?_, fun s d c hc => ?_, fun s d hcnt => ?_, fun s d => ?_⟩
  · rw [takeSample, operation_eq, hs, hx]
  · rw [← shiftIn_eq_ofNat]
    exact ⟨execFall_eq_execShift d hc, execFall_eq_execShift d hc⟩
  · rw [← shiftIn_eq_ofNat]
    exact execFall_eq_execComplete d hcnt
  · exact ⟨s.afterBit d, execFall_eq_afterBit d s, (fallStep_afterBit d s).strobe_eq⟩

/-- Settles O14: the Sample selects `NOP_LOW`, which only clears the record. -/
theorem nopLowChangesNothing : Obligations.NopLowChangesNothing := by
  refine ⟨fun m s x hs hx => ?_, fun s => rfl⟩
  rw [takeSample, operation_eq, hs, hx]

/-- Settles O15: the Sample selects `RISE`, which clears the record and sets `STROBE`. -/
theorem riseSetsStrobe : Obligations.RiseSetsStrobe := by
  refine ⟨fun m s x hs hx => ?_, fun s => rfl⟩
  rw [takeSample, operation_eq, hs, hx]

/-- Settles O16: the Sample selects `NOP_HIGH`, which only clears the record. -/
theorem nopHighChangesNothing : Obligations.NopHighChangesNothing := by
  refine ⟨fun m s x hs hx => ?_, fun s => rfl⟩
  rw [takeSample, operation_eq, hs, hx]

end Sys2Proof.Machine

/-! # Proofs: the byte assembler

Family 2 (41_byte_assembler.md R80 to R85). A completed byte is accepted or rejected, said once for the registers
and the record; the accumulator is the latest bits of the history, read modulo a power of two. -/

namespace Sys2Proof.Machine

/-! ## A completed byte is accepted or rejected -/

/-- `COMPLETE` accepts the byte b in s: inside a packet any byte, elsewhere a sync value (42_sync_tracker.md R90 to
R94). -/
def State.Accepts (s : State) (b : Byte) : Prop := (s.sync = .synchronized ∧ s.cur ≠ 0) ∨ IsSyncValue b

/-- From s to t the byte b has been emitted, and the accumulator starts empty. -/
structure ByteAccepted (b : Byte) (s t : State) : Prop where
  outValid : t.out.outValid = true
  outByte : t.out.outByte = b
  evRej : t.out.evRej = false
  acc : t.acc = 0
  cnt : t.cnt = 0
  bytes : t.bytes = s.bytes ++ [b]

/-- From s to t the byte b has been rejected, and the accumulator keeps its low seven bits. -/
structure ByteRejected (b : Byte) (s t : State) : Prop where
  outValid : t.out.outValid = false
  evRej : t.out.evRej = true
  acc : t.acc = b &&& 0x7F
  cnt : t.cnt = 7
  sync : t.sync = .unsynchronized
  bytes : t.bytes = s.bytes

theorem ByteStep.accepted_or_rejected {b : Byte} {s t : State} (h : ByteStep b s t) :
    (s.Accepts b ∧ ByteAccepted b s t) ∨ (¬ s.Accepts b ∧ ByteRejected b s t) := by
  cases h with
  | payload hs hc => exact .inl ⟨.inl ⟨hs, Fin.val_ne_iff.mp hc⟩, rfl, rfl, rfl, rfl, rfl, rfl⟩
  | acquire hs hb => exact .inl ⟨.inr hb, rfl, rfl, rfl, rfl, rfl, rfl⟩
  | confirm hs hc hb => exact .inl ⟨.inr hb, rfl, rfl, rfl, rfl, rfl, rfl⟩
  | lose hs hc hb =>
    have hcur : s.cur = 0 := Fin.ext hc
    exact .inr ⟨by simp [State.Accepts, hb, hcur], rfl, rfl, rfl, rfl, rfl, rfl⟩
  | slide hs hb => exact .inr ⟨by simp [State.Accepts, hb, hs], rfl, rfl, rfl, rfl, rfl, rfl⟩

/-- The one-bit drop is the remainder modulo 128 (41_byte_assembler.md R84). -/
theorem dropBit_acc_toNat (b : Byte) : (b &&& 0x7F).toNat = b.toNat % 128 :=
  (BitVec.toNat_and b 0x7F).trans (Nat.and_two_pow_sub_one_eq_mod b.toNat 7)

/-! ## The two operations of the bit level -/

/-- Settles O18: `SHIFT` writes the accumulator and the count, and below the count 7 `FALL` is `SHIFT`. -/
theorem shiftStoresOneMoreBit : Obligations.ShiftStoresOneMoreBit :=
  ⟨fun _ _ _ => rfl, fun _ d _ hc => execFall_eq_execShift d hc⟩

/-- The dispatch of `COMPLETE` as R81 states it: `SYNC` first, then the packet boundary, then the sync match. -/
theorem execComplete_eq_dispatch (s : State) (b : Byte) :
    execComplete b s =
      if s.sync = .synchronized then
        if s.cur = 0 then (if syncMatch b then execConfirm b s else execLose b s)
        else execPayload b s
      else if syncMatch b then execAcquire b s else execSlide b s := by
  rcases execComplete_cases b s with
    ⟨hs, hc, e⟩ | ⟨hs, hb, e⟩ | ⟨hs, hc, hb, e⟩ | ⟨hs, hc, hb, e⟩ | ⟨hs, hb, e⟩
  · rw [e, if_pos hs, if_neg (Fin.val_ne_iff.mp hc)]
  · rw [e, if_neg (by simp [hs]), if_pos ((syncMatch_iff b).mpr hb)]
  · rw [e, if_pos hs, if_pos (Fin.ext hc), if_pos ((syncMatch_iff b).mpr hb)]
  · rw [e, if_pos hs, if_pos (Fin.ext hc), if_neg (mt (syncMatch_iff b).mp hb)]
  · rw [e, if_neg (by simp [hs]), if_neg (mt (syncMatch_iff b).mp hb)]

/-- Settles O19: the dispatch by cases, and the restart of an accepted and of a rejected byte. -/
theorem completeDispatchesAndRestarts : Obligations.CompleteDispatchesAndRestarts := by
  intro s b
  refine ⟨execComplete_eq_dispatch s b, ?_⟩
  obtain ⟨t, ht⟩ := exec_next (.complete b) s
  have hstep : ByteStep b s t := byteStep_of_execComplete ht
  refine ⟨t, ht, hstep.strobe_eq, hstep.input_eq, ?_⟩
  rcases hstep.accepted_or_rejected with ⟨hcond, hacc⟩ | ⟨hcond, hrej⟩
  · exact (if_pos hcond).mpr ⟨hacc.acc, hacc.cnt⟩
  · exact (if_neg hcond).mpr ⟨by rw [hrej.acc, dropBit_acc_toNat], hrej.cnt⟩

/-! ## The value of the latest bits (41_byte_assembler.md R85) -/

theorem bitsValue_concat (ds : List Bool) (d : Bool) : bitsValue (ds ++ [d]) = 2 * bitsValue ds + d.toNat :=
  List.foldl_concat _ _ _ _

theorem latestBits_succ_concat (n : Nat) (ds : List Bool) (d : Bool) :
    latestBits (n + 1) (ds ++ [d]) = latestBits n ds ++ [d] :=
  List.rtake_concat_succ ds n d

/-- The latest n bits are the value of all of them modulo 2^n. -/
theorem bitsValue_latestBits (n : Nat) (ds : List Bool) :
    bitsValue (latestBits n ds) = bitsValue ds % 2 ^ n := by
  induction ds using List.reverseRecOn generalizing n with
  | nil => simp [latestBits, bitsValue]
  | append_singleton ds d ih =>
    cases n with
    | zero => simp [latestBits, bitsValue, Nat.mod_one]
    | succ n =>
      have hd := Bool.toNat_le d
      rw [latestBits_succ_concat, bitsValue_concat, bitsValue_concat, ih, pow_succ', Nat.mod_mul,
        show (2 * bitsValue ds + d.toNat) / 2 = bitsValue ds by omega]
      omega

/-- Of the bits ds delivered, the accumulator holds the latest `CNT`. -/
def State.HoldsLatestBits (ds : List Bool) (s : State) : Prop :=
  s.cnt.val ≤ ds.length ∧ s.acc.toNat = bitsValue (latestBits s.cnt.val ds)

/-- One more bit shifted in gives the latest `CNT + 1`. -/
theorem State.HoldsLatestBits.shiftIn_toNat {ds : List Bool} {s : State} (h : s.HoldsLatestBits ds) (d : Bool) :
    (shiftIn s.acc d).toNat = bitsValue (latestBits (s.cnt.val + 1) (ds ++ [d])) := by
  obtain ⟨-, hacc⟩ := h
  have hlt : s.acc.toNat < 2 ^ s.cnt.val := by
    rw [hacc, bitsValue_latestBits]
    exact Nat.mod_lt _ (Nat.two_pow_pos _)
  rw [shiftIn_toNat_of_lt d s.cnt.isLt hlt, latestBits_succ_concat, bitsValue_concat, hacc]

/-- The byte b is the latest eight of the bits ds. -/
def IsLatestByte (b : Byte) (ds : List Bool) : Prop := 8 ≤ ds.length ∧ b.toNat = bitsValue (latestBits 8 ds)

theorem State.HoldsLatestBits.isLatestByte {ds : List Bool} {s : State} (h : s.HoldsLatestBits ds)
    (hcnt : s.cnt.val = 7) (d : Bool) : IsLatestByte (shiftIn s.acc d) (ds ++ [d]) := by
  have hbyte := h.shiftIn_toNat d
  obtain ⟨hlen, -⟩ := h
  rw [hcnt] at hlen hbyte
  exact ⟨by simpa using hlen, hbyte⟩

/-- Emptied, the accumulator holds no bit; after the one-bit drop it holds the latest seven. -/
theorem ByteStep.holdsLatestBits {b : Byte} {s t : State} {ds : List Bool} (h : ByteStep b s t)
    (hb : IsLatestByte b ds) : t.HoldsLatestBits ds := by
  obtain ⟨hlen, hval⟩ := hb
  unfold State.HoldsLatestBits
  rcases h.accepted_or_rejected with ⟨-, hacc⟩ | ⟨-, hrej⟩
  · rw [hacc.acc, hacc.cnt, bitsValue_latestBits]
    simp [Nat.mod_one]
  · rw [hrej.acc, hrej.cnt, dropBit_acc_toNat, hval, bitsValue_latestBits, bitsValue_latestBits]
    exact ⟨Nat.le_of_succ_le hlen, Nat.mod_mod_of_dvd _ (by decide)⟩

theorem FallStep.holdsLatestBits {d : Bool} {s t : State} {ds : List Bool} (h : FallStep d s t)
    (hs : s.HoldsLatestBits ds) : t.HoldsLatestBits (ds ++ [d]) := by
  cases h with
  | shift c hc =>
    have hval := hs.shiftIn_toNat d
    obtain ⟨hlen, -⟩ := hs
    rw [← hc] at hval
    refine ⟨?_, hval⟩
    rw [List.length_append, List.length_singleton, State.setAccCnt_cnt, hc]
    omega
  | complete t hc hb => exact hb.holdsLatestBits (hs.isLatestByte hc d)

theorem feed_reset_holdsLatestBits {m : Masks} {xs : List Sample} {t : State} {rs : List OutRec}
    (h : feed m xs State.reset = .next (t, rs)) : t.HoldsLatestBits (recoveredBits m .idle xs) :=
  feed_bits_induction (P := fun ds s => s.HoldsLatestBits ds) (ds := []) (fun _ _ _ hs => hs)
    (fun _ _ _ _ hs hf => hf.holdsLatestBits hs) ⟨le_rfl, rfl⟩ h

/-- Settles O48: at reset the accumulator holds no bit, and every falling edge keeps `State.HoldsLatestBits`. -/
theorem accumulatorHoldsTheLatestBits : Obligations.AccumulatorHoldsTheLatestBits :=
  fun _ _ _ _ h => feed_reset_holdsLatestBits h

/-! ## Completed bytes from reset -/

/-- The bits of a longer stream: what comes after the first chunk is read from the `STROBE` that it leaves. -/
theorem recoveredBits_append_of_feed {m : Masks} {xs : List Sample} {s t : State} {rs : List OutRec}
    (h : feed m xs s = .next (t, rs)) (ys : List Sample) :
    recoveredBits m s.strobe (xs ++ ys) = recoveredBits m s.strobe xs ++ recoveredBits m t.strobe ys := by
  induction xs generalizing s rs with
  | nil =>
    cases h
    rfl
  | cons x xs ih =>
    obtain ⟨u, qs, hx, hxs, -⟩ := feed_cons_inv _ _ _ _ _ _ h
    rw [List.cons_append, recoveredBits_cons, recoveredBits_cons, ← (sampleStep_of_takeSample hx).strobe_eq, ih hxs,
      List.append_assoc]

/-- A Sample whose step emits or rejects a byte delivers the bit that completes it. -/
theorem SampleStep.byteStep_of_sent {m : Masks} {x : Sample} {s t : State} (h : SampleStep m x s t)
    (hsent : t.out.outValid = true ∨ t.out.evRej = true) :
    recoveredBits m s.strobe [x] = [drx m x] ∧ s.cnt.val = 7 ∧
      ByteStep (shiftIn s.acc (drx m x)) (s.setStrobe .idle) t := by
  cases h with
  | quiet hq => simp [OutRec.none] at hsent
  | fall t hs hx hf =>
    cases hf with
    | shift c hc => simp [OutRec.none] at hsent
    | complete t hc hb => exact ⟨by simp [recoveredBits, hs, hx], hc, hb⟩

/-- Settles O49: the completed byte is `IsLatestByte`, emitted as it is or kept modulo 128. -/
theorem completedByteIsTheLatestEightBits : Obligations.CompletedByteIsTheLatestEightBits := by
  intro m xs x s t rs hfeed hx hsent
  obtain ⟨hbit, hcnt, hstep⟩ := (sampleStep_of_takeSample hx).byteStep_of_sent hsent
  have hbits : recoveredBits m .idle (xs ++ [x]) = recoveredBits m .idle xs ++ [drx m x] :=
    (recoveredBits_append_of_feed hfeed [x]).trans (by rw [hbit]; rfl)
  rw [hbits]
  obtain ⟨hlen, hval⟩ := (feed_reset_holdsLatestBits hfeed).isLatestByte hcnt (drx m x)
  refine ⟨hlen, ?_⟩
  rw [← hval]
  rcases hstep.accepted_or_rejected with ⟨-, hacc⟩ | ⟨-, hrej⟩
  · exact ⟨fun _ => by rw [hacc.outByte], fun hr => by simp [hacc.evRej] at hr⟩
  · exact ⟨fun hv => by simp [hrej.outValid] at hv, fun _ => by rw [hrej.acc, dropBit_acc_toNat]⟩

/-! ## The first sync window (43_step_and_feed.md R119 line 2) -/

/-- The value of a window of eight bits, where it is a sync value. -/
def syncWindow (w : List Bool) : Option Byte :=
  if w.length = 8 ∧ syncMatch (BitVec.ofNat 8 (bitsValue w)) then some (BitVec.ofNat 8 (bitsValue w)) else none

theorem syncWindow_of_length_lt {w : List Bool} (h : w.length < 8) : syncWindow w = none :=
  if_neg fun hw => h.ne hw.1

theorem length_latestBits (n : Nat) (ds : List Bool) : (latestBits n ds).length = min n ds.length := by
  rw [latestBits, List.length_drop]
  omega

theorem latestBits_of_length_le {n : Nat} {ds : List Bool} (h : ds.length ≤ n) : latestBits n ds = ds := by
  rw [latestBits, Nat.sub_eq_zero_of_le h, List.drop_zero]

theorem latestBits_cons_of_le_length {n : Nat} {ds : List Bool} (d : Bool) (h : n ≤ ds.length) :
    latestBits n (d :: ds) = latestBits n ds := by
  rw [latestBits, List.length_cons, Nat.succ_sub h, List.drop_succ_cons, latestBits]

/-- Where the byte b is the latest eight bits, the window at the end is b tested against the sync values. -/
theorem IsLatestByte.syncWindow_eq {b : Byte} {ds : List Bool} (h : IsLatestByte b ds) :
    syncWindow (latestBits 8 ds) = if syncMatch b then some b else none := by
  obtain ⟨hlen, hval⟩ := h
  have hlatest : (latestBits 8 ds).length = 8 := by rw [length_latestBits, Nat.min_eq_left hlen]
  simp [syncWindow, hlatest, ← hval]

theorem firstSyncWindow_cons (d : Bool) (ds : List Bool) :
    firstSyncWindow (d :: ds) = (syncWindow ((d :: ds).take 8)).or (firstSyncWindow ds) := by
  have hlen : ((d :: ds).take 8).length = 8 ↔ 8 ≤ (d :: ds).length := by
    rw [List.length_take]
    omega
  simp only [firstSyncWindow, syncWindow, hlen]
  split_ifs <;> rfl

theorem firstSyncWindow_of_length_lt {ds : List Bool} (h : ds.length < 8) : firstSyncWindow ds = none := by
  induction ds with
  | nil => rfl
  | cons d ds ih =>
    rw [firstSyncWindow_cons, List.take_of_length_le h.le, syncWindow_of_length_lt h]
    exact ih (Nat.lt_of_succ_lt h)

/-- One more bit adds one window, the latest eight bits, after all the others. -/
theorem firstSyncWindow_concat (ds : List Bool) (d : Bool) :
    firstSyncWindow (ds ++ [d]) = (firstSyncWindow ds).or (syncWindow (latestBits 8 (ds ++ [d]))) := by
  induction ds with
  | nil => rfl
  | cons e ds ih =>
    rw [List.cons_append, firstSyncWindow_cons, ih]
    have hlenConcat : (ds ++ [d]).length = ds.length + 1 := List.length_append
    by_cases hlen : 8 ≤ ds.length + 1
    · have htake : (e :: (ds ++ [d])).take 8 = (e :: ds).take 8 := List.take_append_of_le_length (l₁ := e :: ds) hlen
      rw [htake, latestBits_cons_of_le_length e (hlen.trans_eq hlenConcat.symm), firstSyncWindow_cons, Option.or_assoc]
    · have hwhole : (e :: (ds ++ [d])).length ≤ 8 := by
        rw [List.length_cons]
        omega
      have hlatest : (latestBits 8 (ds ++ [d])).length < 8 := by
        rw [length_latestBits]
        omega
      rw [firstSyncWindow_of_length_lt (ds := e :: ds) (not_le.mp hlen), firstSyncWindow_of_length_lt (by omega),
        syncWindow_of_length_lt hlatest, List.take_of_length_le hwhole, latestBits_of_length_le hwhole,
        Option.or_none, Option.or_none, Option.none_or]

/-- Of the bits ds delivered, the first sync window is the first byte sent; until then the tracker hunts. -/
def State.FirstByteAfter (ds : List Bool) (s : State) : Prop :=
  s.bytes.head? = firstSyncWindow ds ∧ (s.bytes = [] → s.sync = .unsynchronized)

/-- Once a byte has been sent, neither the first byte nor the first window changes. -/
theorem FallStep.firstByteAfter_of_sent {d : Bool} {s t : State} {ds : List Bool} (h : FallStep d s t)
    (hs : s.FirstByteAfter ds) (hsent : s.bytes ≠ []) : t.FirstByteAfter (ds ++ [d]) := by
  obtain ⟨b, bs, hbytes⟩ := List.exists_cons_of_ne_nil hsent
  obtain ⟨cs, -, hgrow, -, -, -⟩ := h.appendsTo
  obtain ⟨hhead, -⟩ := hs
  have hwindow : firstSyncWindow ds = some b := by rw [← hhead, hbytes, List.head?_cons]
  rw [hbytes, List.cons_append] at hgrow
  refine ⟨?_, fun hnil => by simp [hgrow] at hnil⟩
  rw [firstSyncWindow_concat, hwindow, hgrow]
  rfl

/-- While hunting with nothing sent, a shift makes no window of eight bits, and a completed byte is the window that one
more bit adds. -/
theorem FallStep.firstByteAfter_of_hunting {d : Bool} {s t : State} {ds : List Bool} (h : FallStep d s t)
    (hs : s.FirstByteAfter ds) (hbits : s.HoldsLatestBits ds) (hhunt : s.HuntsAfter ds) (hnil : s.bytes = []) :
    t.FirstByteAfter (ds ++ [d]) := by
  obtain ⟨hhead, hunsync⟩ := hs
  obtain ⟨hfew, hmany⟩ := hhunt
  have hsync := hunsync hnil
  have hwindow : firstSyncWindow (ds ++ [d]) = syncWindow (latestBits 8 (ds ++ [d])) := by
    rw [firstSyncWindow_concat, ← hhead, hnil]
    rfl
  unfold State.FirstByteAfter
  rw [hwindow]
  cases h with
  | shift c hc =>
    have hlt := c.isLt
    have hlen : ds.length < 8 := by
      by_contra hge
      have hseven := congrArg Fin.val (hmany (not_lt.mp hge) hsync)
      omega
    have hcnt := (hfew hlen).1
    have hshort : (latestBits 8 (ds ++ [d])).length < 8 := by
      rw [length_latestBits, List.length_append, List.length_singleton]
      omega
    rw [syncWindow_of_length_lt hshort]
    exact ⟨congrArg List.head? hnil, fun _ => hsync⟩
  | complete t hc hb =>
    rw [(hbits.isLatestByte hc d).syncWindow_eq]
    rcases hb.accepted_or_rejected with ⟨hcond, hacc⟩ | ⟨hcond, hrej⟩
    · have hmatch : IsSyncValue (shiftIn s.acc d) := hcond.resolve_left (by simp [hsync])
      simp [(syncMatch_iff _).mpr hmatch, hacc.bytes, hnil]
    · have hmatch := (syncMatch_eq_false_iff _).mpr fun hvalue => hcond (.inr hvalue)
      simp [hmatch, hrej.bytes, hrej.sync, hnil]

/-- Settles O56: `State.FirstByteAfter` holds at reset and every falling edge keeps it, together with the two invariants
that say which byte completes and when. -/
theorem firstByteIsTheFirstSyncWindow : Obligations.FirstByteIsTheFirstSyncWindow := by
  intro m xs t rs h
  have hreset : State.reset.FirstByteAfter [] ∧ State.reset.HoldsLatestBits [] ∧ State.reset.HuntsAfter [] :=
    ⟨⟨rfl, fun _ => rfl⟩, ⟨le_rfl, rfl⟩, fun _ => ⟨rfl, rfl, rfl⟩, by simp⟩
  refine (feed_bits_induction (ds := [])
    (P := fun ds s => s.FirstByteAfter ds ∧ s.HoldsLatestBits ds ∧ s.HuntsAfter ds)
    (fun _ _ _ hs => hs) (fun ds s d t hs hf => ?_) hreset h).1.1
  obtain ⟨hfirst, hbits, hhunt⟩ := hs
  refine ⟨?_, hf.holdsLatestBits hbits, hf.huntsAfter hhunt⟩
  by_cases hnil : s.bytes = []
  · exact hf.firstByteAfter_of_hunting hfirst hbits hhunt hnil
  · exact hf.firstByteAfter_of_sent hfirst hnil

end Sys2Proof.Machine

/-! # Proofs: the sync tracker

Family 3 (42_sync_tracker.md R90 to R99). `COMPLETE` runs the one byte-level operation whose condition holds; while
hunting that choice does not read the cursor. A packet with an extra or a missing bit is cut into the bytes that the
tracker sees: they fill the packet, and the byte at its boundary loses sync. -/

namespace Sys2Proof.Machine

/-! ## The five operations of the byte level -/

/-- The one-bit drop in the words of R93 and R94. -/
theorem dropBit_acc_eq_ofNat (b : Byte) : b &&& 0x7F = BitVec.ofNat 8 (b.toNat % 128) := by
  rw [← dropBit_acc_toNat, BitVec.ofNat_toNat, BitVec.setWidth_eq]

/-- Settles O30: `nextCursor_val`. -/
theorem cursorAdvancesModulo192 : Obligations.CursorAdvancesModulo192 := nextCursor_val

/-- Settles O20: `PAYLOAD` is the byte step inside a packet, and its cursor is the remainder of R97. -/
theorem payloadPassesTheByteThrough : Obligations.PayloadPassesTheByteThrough := by
  refine ⟨fun s b hs hc => (ByteStep.payload hs (Fin.val_ne_iff.mpr hc)).execComplete_eq, fun s b c hc => ?_⟩
  obtain rfl : nextCursor s.cur = c := by
    have hlt : s.cur.val < 192 := s.cur.isLt
    apply Fin.ext
    rw [nextCursor_val, hc]
    split_ifs <;> omega
  rfl

/-- Settles O21: `ACQUIRE` is the byte step of a sync value while hunting. -/
theorem acquireGainsSync : Obligations.AcquireGainsSync :=
  ⟨fun _ _ hs hb => (ByteStep.acquire hs hb).execComplete_eq, fun _ _ => rfl⟩

/-- Settles O22: `CONFIRM` is the byte step of a sync value at a packet boundary. -/
theorem confirmKeepsSync : Obligations.ConfirmKeepsSync :=
  ⟨fun _ _ hs hc hb => (ByteStep.confirm hs (congrArg Fin.val hc) hb).execComplete_eq, fun _ _ => rfl⟩

/-- Settles O23: `LOSE` is the byte step of any other value at a packet boundary, and sends its events one by one. -/
theorem loseDropsOneBit : Obligations.LoseDropsOneBit := by
  refine ⟨fun s b hs hc hA hB => ?_, fun s b => ?_⟩
  · exact (ByteStep.lose hs (congrArg Fin.val hc) (not_or.mpr ⟨hA, hB⟩)).execComplete_eq
  · rw [← dropBit_acc_eq_ofNat, ← List.singleton_append, ← List.append_assoc]
    rfl

/-- Settles O24: `SLIDE` is the byte step of any other value while hunting. -/
theorem slideDropsOneBit : Obligations.SlideDropsOneBit := by
  refine ⟨fun s b hs hA hB => (ByteStep.slide hs (not_or.mpr ⟨hA, hB⟩)).execComplete_eq, fun s b => ?_⟩
  rw [← dropBit_acc_eq_ofNat]
  rfl

/-! ## While hunting every completed byte is tested and the cursor is not consulted (42_sync_tracker.md R98) -/

/-- While `Unsynchronized` the sync match alone picks the operation. -/
theorem execComplete_of_unsynchronized (b : Byte) {s : State} (hs : s.sync = .unsynchronized) :
    execComplete b s = if syncMatch b then execAcquire b s else execSlide b s := by
  rw [execComplete_eq_dispatch, if_neg (by simp [hs])]

/-- While `Unsynchronized` a completed byte is a sync value that gains sync as byte 0 of a packet, or it is rejected. -/
theorem ByteStep.tested {b : Byte} {s t : State} (h : ByteStep b s t) (hsync : s.sync = .unsynchronized) :
    (IsSyncValue b ∧ ByteAccepted b s t ∧ t.out.evAcq = true ∧ t.cur = 1 ∧ t.sync = .synchronized) ∨
    (¬ IsSyncValue b ∧ ByteRejected b s t ∧ t.out.evAcq = false) := by
  cases h with
  | payload hs hc => simp [hs] at hsync
  | acquire hs hb => exact .inl ⟨hb, ⟨rfl, rfl, rfl, rfl, rfl, rfl⟩, rfl, rfl, rfl⟩
  | confirm hs hc hb => simp [hs] at hsync
  | lose hs hc hb => simp [hs] at hsync
  | slide hs hb => exact .inr ⟨hb, ⟨rfl, rfl, rfl, rfl, rfl, rfl⟩, rfl⟩

/-- Where both outcomes answer, they agree on everything but the cursor. -/
def SameButCursor (o o' : Host.Outcome State Fault Refusal) : Prop :=
  ∀ t u, o = .next t → o' = .next u → t.setCur 0 = u.setCur 0

theorem sameButCursor_next {t u : State} (h : t.setCur 0 = u.setCur 0) : SameButCursor (.next t) (.next u) := by
  intro t' u' ht hu
  cases ht
  cases hu
  exact h

theorem execComplete_sameButCursor (b : Byte) (c : Cursor) {s : State} (hs : s.sync = .unsynchronized) :
    SameButCursor (execComplete b s) (execComplete b (s.setCur c)) := by
  rw [execComplete_of_unsynchronized b hs, execComplete_of_unsynchronized b (s := s.setCur c) hs]
  split_ifs
  · exact sameButCursor_next rfl
  · exact sameButCursor_next rfl

theorem execFall_sameButCursor (d : Bool) (c : Cursor) {s : State} (hs : s.sync = .unsynchronized) :
    SameButCursor (execFall d s) (execFall d (s.setCur c)) := by
  rcases execFall_cases d s with ⟨n, hn, e⟩ | ⟨hn, e⟩
  · rw [e, execFall_eq_execShift d (s := s.setCur c) hn.symm]
    exact sameButCursor_next rfl
  · rw [e, execFall_eq_execComplete d (s := s.setCur c) (Fin.ext hn)]
    exact execComplete_sameButCursor (shiftIn s.acc d) c (s := s.setStrobe .idle) hs

theorem takeSample_sameButCursor (m : Masks) (x : Sample) (c : Cursor) {s : State} (hs : s.sync = .unsynchronized) :
    SameButCursor (takeSample m x s) (takeSample m x (s.setCur c)) := by
  unfold takeSample
  rw [show (s.setCur c).operation m x = s.operation m x from rfl, operation_eq]
  split
  · exact sameButCursor_next rfl
  · exact sameButCursor_next rfl
  · exact sameButCursor_next rfl
  · exact execFall_sameButCursor _ c hs

/-- Settles O34: a completed byte is `ByteStep.tested`, and no case of the step reads the cursor. -/
theorem huntingEmitsOnlySyncValues : Obligations.HuntingEmitsOnlySyncValues := by
  refine ⟨fun m x s b hsync hs hx hcnt hb => ?_, fun m x s t hsync h => ?_, fun m x c s t u hsync ht hu => ?_⟩
  · have hrun : takeSample m x s = execComplete b (s.setStrobe .idle) := by
      rw [takeSample, operation_eq, hs, hx, hb]
      exact execFall_eq_execComplete (drx m x) hcnt
    obtain ⟨t, ht⟩ := takeSample_next m x s
    refine ⟨t, ht, ?_⟩
    rcases (byteStep_of_execComplete (hrun.symm.trans ht)).tested hsync with
      ⟨hmatch, hacc, hacq, -, -⟩ | ⟨hmatch, hrej, hacq⟩
    · exact ⟨fun _ => ⟨hacc.outValid, hacc.outByte, hacq, hacc.evRej, hacc.bytes⟩, fun hn => absurd hmatch hn⟩
    · exact ⟨fun hn => absurd hn hmatch, fun _ => ⟨hrej.outValid, hacq, hrej.evRej, hrej.bytes⟩⟩
  · rcases (sampleStep_of_takeSample h).silent_or_byteStep with ⟨-, hbytes, -⟩ | ⟨b, hb⟩
    · exact .inl hbytes
    · rcases hb.tested hsync with ⟨hmatch, hacc, -, hcur, hlocked⟩ | ⟨-, hrej, -⟩
      · exact .inr ⟨b, hmatch, hacc.bytes, hcur, hlocked⟩
      · exact .inl hrej.bytes
  · have hsame := takeSample_sameButCursor m x c hsync t u ht hu
    obtain ⟨⟨_, _, _, _, _⟩, _, _, _, _⟩ := t
    obtain ⟨⟨_, _, _, _, _⟩, _, _, _, _⟩ := u
    cases hsame
    exact ⟨rfl, rfl, rfl, rfl, rfl, rfl, rfl⟩

/-! ## Bits cut into bytes at another place (42_sync_tracker.md R99 lines 4 and 5) -/

theorem bitsStream_append (ds es : List Bool) : bitsStream (ds ++ es) = bitsStream ds ++ bitsStream es :=
  List.flatMap_append

/-- Eight bits, shifted in one after the other, are the bits of what the accumulator then holds. -/
theorem byteBits_foldl_shiftIn {ds : List Bool} (a : Byte) (h : ds.length = 8) :
    byteBits (ds.foldl shiftIn a) = ds := by
  match ds, h with
  | [_, _, _, _, _, _, _, _], _ =>
    simp [byteBits, shiftIn_eq_shiftConcat]

/-- One bit after a byte: the bit that falls out on the left, and then the byte shifted by one. -/
theorem byteBits_concat (v : Byte) (q : Bool) : byteBits v ++ [q] = v.getLsbD 7 :: byteBits (shiftIn v q) := by
  simp [byteBits, shiftIn_eq_shiftConcat]

/-- The byte that R99 calls slipped, with the bit left over shifted into it, is the true byte. -/
theorem shiftIn_slipped (p : Bool) (v : Byte) :
    shiftIn (BitVec.ofBool p ++ v.extractLsb' 1 7) (v.getLsbD 0) = v := by
  rw [shiftIn_eq_shiftConcat]
  apply BitVec.eq_of_getLsbD_eq
  intro i hi
  rw [BitVec.getLsbD_shiftConcat, BitVec.getLsbD_append]
  cases i with
  | zero => simp
  | succ j => simp [hi, show j < 7 by omega, Nat.add_comm 1 j]

/-- One bit before a byte: the slipped byte, and then the bit left over. -/
theorem cons_byteBits (p : Bool) (v : Byte) :
    p :: byteBits v = byteBits (BitVec.ofBool p ++ v.extractLsb' 1 7) ++ [v.getLsbD 0] := by
  rw [byteBits_concat, shiftIn_slipped, BitVec.getLsbD_append]
  simp

theorem length_flatMap_byteBits (vs : List Byte) : (vs.flatMap byteBits).length = 8 * vs.length := by
  simp [List.length_flatMap, byteBits, Nat.mul_comm]

/-- Bits that fill whole bytes are the bits of some bytes. -/
theorem exists_flatMap_byteBits {n : Nat} {ds : List Bool} (h : ds.length = 8 * n) :
    ∃ ws : List Byte, ws.length = n ∧ ws.flatMap byteBits = ds := by
  induction n generalizing ds with
  | zero => exact ⟨[], rfl, (List.eq_nil_of_length_eq_zero h).symm⟩
  | succ n ih =>
    obtain ⟨ws, hlen, hws⟩ := ih (ds := ds.drop 8) (by rw [List.length_drop]; omega)
    have hfirst := byteBits_foldl_shiftIn (ds := ds.take 8) 0 (by rw [List.length_take]; omega)
    exact ⟨_ :: ws, congrArg Nat.succ hlen, by rw [List.flatMap_cons, hws, hfirst, List.take_append_drop]⟩

theorem slippedBytes_length (p : Bool) (vs : List Byte) : (slippedBytes p vs).length = vs.length := by
  induction vs generalizing p with
  | nil => rfl
  | cons v vs ih => exact congrArg Nat.succ (ih _)

/-- A bit before whole bytes: the slipped bytes and the last bit left over. -/
theorem exists_cons_flatMap_byteBits (p : Bool) (vs : List Byte) :
    ∃ e, p :: vs.flatMap byteBits = (slippedBytes p vs).flatMap byteBits ++ [e] := by
  induction vs generalizing p with
  | nil => exact ⟨p, rfl⟩
  | cons v vs ih =>
    obtain ⟨e, he⟩ := ih (v.getLsbD 0)
    refine ⟨e, ?_⟩
    rw [List.flatMap_cons, ← List.cons_append, cons_byteBits, List.append_assoc, List.singleton_append, he,
      slippedBytes, List.flatMap_cons, List.append_assoc]

/-! ## A packet whose boundary byte is no sync value -/

/-- A sync value shifted by one bit is no sync value. -/
theorem not_isSyncValue_shiftIn {v : Byte} (hv : IsSyncValue v) (q : Bool) : ¬ IsSyncValue (shiftIn v q) := by
  rcases hv with rfl | rfl <;> cases q <;> decide

/-- The bit that the one-bit drop clears would leave the accumulator with the next shift. -/
theorem shiftIn_dropBit (b : Byte) (d : Bool) : shiftIn (b &&& 0x7F) d = shiftIn b d := by
  apply BitVec.eq_of_toNat_eq
  rw [shiftIn_toNat, shiftIn_toNat, dropBit_acc_toNat]
  omega

theorem ByteStep.unique {b : Byte} {s t u : State} (h : ByteStep b s t) (h' : ByteStep b s u) : t = u :=
  Host.Outcome.next.inj (h.execComplete_eq.symm.trans h'.execComplete_eq)

/-- At the count 7 a falling edge completes the byte that its bit makes of the accumulator. -/
theorem ByteStep.eq_afterBit {b : Byte} {d : Bool} {s t : State} (h : ByteStep b (s.setStrobe .idle) t)
    (hcnt : s.cnt = 7) (hb : shiftIn s.acc d = b) : t = s.afterBit d := by
  subst hb
  exact (FallStep.complete t (congrArg Fin.val hcnt) h).eq_afterBit

/-- From s to t the bytes ws have filled the packet and the byte b at its boundary has lost sync. -/
structure State.LosesSyncAfter (s : State) (ws : List Byte) (b : Byte) (t : State) : Prop where
  bytes : t.bytes = s.bytes ++ ws
  events : t.events = s.events ++ [.syncLost, .byteRejected]
  strobe : t.strobe = .idle
  acc : t.acc = b &&& 0x7F
  cnt : t.cnt = 7
  sync : t.sync = .unsynchronized
  cur : t.cur = 0

/-- The bytes up to the packet's end pass through, whatever they are, and the byte after them runs `LOSE`. -/
theorem losesSyncAfter_afterBits {ws : List Byte} {b : Byte} {s : State} (hc : s.cnt = 0)
    (hsync : s.sync = .synchronized) (hcur : s.cur ≠ 0) (hlen : s.cur.val + ws.length = 192)
    (hb : ¬ IsSyncValue b) : s.LosesSyncAfter ws b (s.afterBits (ws.flatMap byteBits ++ byteBits b)) := by
  have hlt : s.cur.val < 192 := s.cur.isLt
  have hne : ws ≠ [] := List.length_pos_iff.mp (by omega)
  obtain ⟨hbytes, hevents, -, -, hc', hsync', hcur'⟩ := passesThrough_flatMap_byteBits hc hsync hcur hne hlen.le
  rw [hlen] at hcur'
  rw [State.afterBits_append, (byteStep_afterBits_byteBits b hc').unique (.lose hsync' hcur' hb)]
  exact ⟨hbytes, by simp [hevents], rfl, rfl, rfl, rfl, Fin.ext hcur'⟩

/-- Settles O52: the extra bit slips the packet; the byte at its boundary holds the upper seven bits of the sync byte,
`LOSE` keeps them, and the last bit completes it for `ACQUIRE`. -/
theorem oneExtraBitIsRecovered : Obligations.OneExtraBitIsRecovered := by
  intro s p vs sb hs hc hsync hcur hlen hsb
  obtain ⟨e, he⟩ := exists_cons_flatMap_byteBits p vs
  set w : Byte := BitVec.ofBool e ++ sb.extractLsb' 1 7
  have hshift : shiftIn w (sb.getLsbD 0) = sb := shiftIn_slipped e sb
  have hbits : p :: (vs.flatMap byteBits ++ byteBits sb) =
      ((slippedBytes p vs).flatMap byteBits ++ byteBits w) ++ [sb.getLsbD 0] := by
    rw [← List.cons_append, he, List.append_assoc, List.singleton_append, cons_byteBits, List.append_assoc]
  have hboundary : ¬ IsSyncValue w := fun h => not_isSyncValue_shiftIn h (sb.getLsbD 0) (by rwa [hshift])
  have hlost := losesSyncAfter_afterBits (ws := slippedBytes p vs) hc hsync hcur (by rwa [slippedBytes_length])
    hboundary
  obtain ⟨rs, hfeed⟩ := feed_bitsStream (p :: (vs.flatMap byteBits ++ byteBits sb)) hs
  rw [packetStream_eq_bitsStream, List.append_assoc, byteStream, ← bitsStream_append]
  refine ⟨_, rs, hfeed, ?_⟩
  rw [hbits, State.afterBits_append]
  generalize s.afterBits _ = u at hlost ⊢
  have hbyte : shiftIn u.acc (sb.getLsbD 0) = sb := by rw [hlost.acc, shiftIn_dropBit, hshift]
  have hacquire := ByteStep.acquire (s := u.setStrobe .idle) hlost.sync hsb
  rw [State.afterBits_cons, State.afterBits_nil, ← hacquire.eq_afterBit hlost.cnt hbyte]
  exact ⟨by simp [hlost.bytes], by simp [hlost.events], rfl, rfl, rfl, rfl, rfl⟩

/-- Settles O53: the missing bit moves every byte up to the boundary by one bit; there the sync byte stands shifted with
the bit after it, and `LOSE` rejects it. -/
theorem oneMissingBitLosesSync : Obligations.OneMissingBitLosesSync := by
  intro s ds vs sb q hs hc hsync hcur hds hlen hsb
  obtain ⟨ws, hwlen, hws⟩ : ∃ ws : List Byte, ws.length = vs.length + 1 ∧
      ws.flatMap byteBits = ds ++ vs.flatMap byteBits ++ [sb.getLsbD 7] := by
    apply exists_flatMap_byteBits
    rw [List.length_append, List.length_append, hds, length_flatMap_byteBits, List.length_singleton]
    omega
  have hbits : ds ++ vs.flatMap byteBits ++ byteBits sb ++ [q] = ws.flatMap byteBits ++ byteBits (shiftIn sb q) := by
    rw [hws, List.append_assoc _ (byteBits sb), byteBits_concat, List.append_assoc _ [_], List.singleton_append]
  have hlost := losesSyncAfter_afterBits hc hsync hcur (ws := ws) (by omega) (not_isSyncValue_shiftIn hsb q)
  obtain ⟨rs, hfeed⟩ := feed_bitsStream (ds ++ vs.flatMap byteBits ++ byteBits sb ++ [q]) hs
  have hstream : bitsStream ds ++ packetStream vs ++ byteStream sb ++ bitStream q =
      bitsStream (ds ++ vs.flatMap byteBits ++ byteBits sb ++ [q]) := by
    simp only [bitsStream_append, packetStream_eq_bitsStream, byteStream]
    rfl
  rw [hstream]
  refine ⟨_, rs, hfeed, ?_⟩
  rw [hbits]
  refine ⟨?_, hlost.events, hlost.strobe, ?_, hlost.cnt, hlost.sync, hlost.cur⟩
  · rw [hlost.bytes, List.length_append, hwlen, Nat.add_assoc]
  · rw [hlost.acc, dropBit_acc_toNat, shiftIn_toNat]
    omega

end Sys2Proof.Machine

/-! # Proofs: chunks of Samples and runs from reset

The laws of `feed` (43_step_and_feed.md R112, R113), its run on the machine, and what every run from reset sends
(R118, R119). -/

namespace Sys2Proof.Machine

/-! ## `feed` answers for every chunk, and chunks compose -/

theorem feed_next (m : Masks) (xs : List Sample) (s : State) :
    ∃ t rs, feed m xs s = .next (t, rs) ∧ rs.length = xs.length := by
  induction xs generalizing s with
  | nil => exact ⟨s, [], rfl, rfl⟩
  | cons x xs ih =>
    obtain ⟨t, hx⟩ := takeSample_next m x s
    obtain ⟨u, rs, hxs, hlen⟩ := ih t
    exact ⟨u, t.out :: rs, feed_cons_eq _ _ _ _ _ _ _ hx hxs, congrArg Nat.succ hlen⟩

/-- Settles O43: the first Sample always answers, and by induction so does the rest, one record each. -/
theorem feedAnswersForEveryChunk : Obligations.FeedAnswersForEveryChunk := by
  refine ⟨fun m s => rfl, fun m x xs s => ?_, feed_next⟩
  obtain ⟨t, hx⟩ := takeSample_next m x s
  obtain ⟨u, rs, hxs, -⟩ := feed_next m xs t
  exact ⟨t, u, rs, hx, hxs, feed_cons_eq _ _ _ _ _ _ _ hx hxs⟩

theorem feed_append {m : Masks} {xs ys : List Sample} {s t u : State} {rs qs : List OutRec}
    (hxs : feed m xs s = .next (t, rs)) (hys : feed m ys t = .next (u, qs)) :
    feed m (xs ++ ys) s = .next (u, rs ++ qs) := by
  induction xs generalizing s rs with
  | nil =>
    cases hxs
    exact hys
  | cons x xs ih =>
    obtain ⟨v, ps, hx, htail, rfl⟩ := feed_cons_inv _ _ _ _ _ _ hxs
    exact feed_cons_eq _ _ _ _ _ _ _ hx (ih htail)

/-- Settles O44, by induction on the first chunk. -/
theorem chunkBoundariesDoNotMatter : Obligations.ChunkBoundariesDoNotMatter :=
  fun _ _ _ _ _ _ _ _ hxs hys => feed_append hxs hys

/-- What a joined chunk has done: its first part answered, and its second part led from there to the same state. -/
theorem feed_append_inv {m : Masks} {xs ys : List Sample} {s u : State} {ps : List OutRec}
    (h : feed m (xs ++ ys) s = .next (u, ps)) :
    ∃ t rs qs, feed m xs s = .next (t, rs) ∧ feed m ys t = .next (u, qs) := by
  obtain ⟨t, rs, hxs, -⟩ := feed_next m xs s
  obtain ⟨v, qs, hys, -⟩ := feed_next m ys t
  cases (feed_append hxs hys).symm.trans h
  exact ⟨t, rs, qs, hxs, hys⟩

/-! ## A chunk run by the machine (log entry 3) -/

theorem SampleStep.growsByRecord {m : Masks} {x : Sample} {s t : State} (h : SampleStep m x s t) :
    s.GrowsByRecord t := by
  rcases h.silent_or_byteStep with hsilent | ⟨b, hb⟩
  · exact hsilent.growsByRecord
  · exact hb.growsByRecord

/-- Two states with the same registers, record, streams and pending cycles are the same state. -/
theorem State.eq_of_parts {s t : State} (hdec : s.toDecoder = t.toDecoder) (hinput : s.input = t.input)
    (hout : s.out = t.out) (hbytes : s.bytes = t.bytes) (hevents : s.events = t.events) : s = t := by
  cases s
  cases t
  congr

/-- A Sample does the same whatever cycles are pending, and leaves them pending. -/
theorem takeSample_withInput {m : Masks} {x : Sample} {s t : State} (h : takeSample m x s = .next t)
    (cs : List Cycle) : takeSample m x { s with input := cs } = .next { t with input := cs } := by
  obtain ⟨u, hu⟩ := takeSample_next m x { s with input := cs }
  obtain ⟨hdec, hout⟩ := takeSample_sameResult m x (s := { s with input := cs }) (s' := s) rfl u t hu h
  obtain ⟨hub, hue⟩ := (sampleStep_of_takeSample hu).growsByRecord
  obtain ⟨htb, hte⟩ := (sampleStep_of_takeSample h).growsByRecord
  rw [hu]
  refine congrArg Host.Outcome.next (State.eq_of_parts hdec (sampleStep_of_takeSample hu).input_eq hout ?_ ?_)
  · rw [hub, hout]
    exact htb.symm
  · rw [hue, hout]
    exact hte.symm

theorem core_run_succ_of_step {s t : State} (h : step s = .next t) (k : Nat) :
    core.run (k + 1) s = core.run k t := by
  simp only [Host.Core.run, show core.step s = .next t from h]

/-- Settles O45: the next pending cycle presents the first Sample, whose step does not see the cycles behind it. -/
theorem feedIsABurstOfSteps : Obligations.FeedIsABurstOfSteps := by
  intro xs rest s t rs h
  induction xs generalizing s rs with
  | nil =>
    cases h
    rfl
  | cons x xs ih =>
    obtain ⟨u, qs, hx, hxs, -⟩ := feed_cons_inv _ _ _ _ _ _ h
    have hstep : step { s with input := (x :: xs).map Cycle.present ++ rest } =
        .next { u with input := xs.map Cycle.present ++ rest } :=
      (step_cons s (Cycle.present x) _).trans (takeSample_withInput hx _)
    exact (core_run_succ_of_step hstep xs.length).trans (ih u qs hxs)

/-! ## One clean packet (43_step_and_feed.md R118 line 1) -/

theorem takeSample_low_strobe {m : Masks} {x : Sample} (hx : crx m x = false) {s t : State}
    (h : takeSample m x s = .next t) : t.strobe = .idle := by
  rw [(sampleStep_of_takeSample h).strobe_eq, hx, strobeOfLevel_false]

/-- A correct encoding ends with CRX low. -/
theorem Encodes.strobe_idle {m : Masks} {ds : List Bool} {xs : List Sample} (h : Encodes m ds xs) {s t : State}
    {rs : List OutRec} (hs : s.strobe = .idle) (hfeed : feed m xs s = .next (t, rs)) : t.strobe = .idle := by
  induction h generalizing s rs with
  | nil =>
    cases hfeed
    exact hs
  | rest x ds xs hx _ ih =>
    obtain ⟨u, qs, hu, hxs, -⟩ := feed_cons_inv _ _ _ _ _ _ hfeed
    exact ih (takeSample_low_strobe hx hu) hxs
  | bit highs x ds xs _ _ hx _ ih =>
    obtain ⟨v, _, ps, -, htail⟩ := feed_append_inv hfeed
    obtain ⟨u, qs, hu, hxs, -⟩ := feed_cons_inv _ _ _ _ _ _ htail
    exact ih (takeSample_low_strobe hx hu) hxs

/-- The bits of one packet from reset: its sync byte runs `ACQUIRE`, and the other 191 bytes pass through. -/
theorem afterBits_reset_packet {v0 : Byte} {vs : List Byte} (hv0 : IsSyncValue v0) (hlen : vs.length = 191) :
    ∃ u : State, u.bytes = [v0] ∧ u.events = [.syncAcquired] ∧ u.cur = 1 ∧
      u.PassesThrough vs (State.reset.afterBits ((v0 :: vs).flatMap byteBits)) := by
  have hacquire := ByteStep.acquire (s := State.reset.setStrobe .idle) rfl hv0
  have hne : vs ≠ [] := List.length_pos_iff.mp (by omega)
  rw [List.flatMap_cons, State.afterBits_append, (byteStep_afterBits_byteBits v0 rfl).unique hacquire]
  refine ⟨_, rfl, rfl, rfl, passesThrough_flatMap_byteBits rfl rfl (show (1 : Cursor) ≠ 0 by decide) hne ?_⟩
  rw [hlen]
  rfl

/-- Settles O51: every encoding of the packet decodes like its bits, and ends with `STROBE` `Idle`. -/
theorem oneCleanPacketFromReset : Obligations.OneCleanPacketFromReset := by
  intro v0 vs xs hv0 hlen hxs
  obtain ⟨t, rs, hfeed, -⟩ := feed_next Config.masks xs State.reset
  have hsame := feed_sameDecoding_afterBits hfeed
  rw [show recoveredBits Config.masks State.reset.strobe xs = _ from hxs.recoveredBits_eq] at hsame
  obtain ⟨hacc, hcnt, hsync, hcur, hbytes, hevents⟩ := hsame
  obtain ⟨u, hub, hue, huc, hbytes', hevents', -, hacc', hcnt', hsync', hcur'⟩ := afterBits_reset_packet hv0 hlen
  refine ⟨t, rs, hfeed, ?_, ?_, hxs.strobe_idle rfl hfeed, hacc.trans hacc', hcnt.trans hcnt',
    hsync.trans hsync', ?_⟩
  · rw [hbytes, hbytes', hub, List.singleton_append]
  · rw [hevents, hevents', hue]
  · rw [hcur]
    apply Fin.ext
    rw [hcur', huc, hlen]
    rfl

/-! ## Eight recovered bits for each emitted byte (43_step_and_feed.md R119 line 3) -/

/-- The bits ds delivered pay eight for each byte sent and one for each bit that the accumulator counts. -/
def State.PaidBy (ds : List Bool) (s : State) : Prop := 8 * s.bytes.length + s.cnt.val ≤ ds.length

/-- A completed byte is paid by the seven bits counted and the new one; a rejected byte gives one of the eight up. -/
theorem FallStep.paidBy {d : Bool} {s t : State} {ds : List Bool} (h : FallStep d s t) (hs : s.PaidBy ds) :
    t.PaidBy (ds ++ [d]) := by
  unfold State.PaidBy at hs ⊢
  rw [List.length_append, List.length_singleton]
  cases h with
  | shift c hc =>
    simp only [State.setAccCnt_bytes, State.clearOut_bytes, State.setStrobe_bytes, State.setAccCnt_cnt, hc]
    omega
  | complete t hc hb =>
    rcases hb.accepted_or_rejected with ⟨-, hacc⟩ | ⟨-, hrej⟩
    · simp only [hacc.bytes, hacc.cnt, State.setStrobe_bytes, List.length_append, List.length_singleton, Fin.val_zero]
      omega
    · have hseven : t.cnt.val = 7 := congrArg Fin.val hrej.cnt
      rw [hrej.bytes, State.setStrobe_bytes, hseven]
      omega

/-- Settles O54: reset has sent nothing and counts no bit, and every falling edge keeps `State.PaidBy`. -/
theorem emittedBytesNeedEightBitsEach : Obligations.EmittedBytesNeedEightBitsEach := by
  intro m xs t rs h
  have hpaid : t.PaidBy (recoveredBits m .idle xs) :=
    feed_bits_induction (P := fun ds s => s.PaidBy ds) (ds := []) (fun _ _ _ hs => hs)
      (fun _ _ _ _ hs hf => hf.paidBy hs) (le_refl 0) h
  unfold State.PaidBy at hpaid
  omega

/-! ## The sync events alternate (43_step_and_feed.md R119 line 4) -/

@[simp] theorem syncEvents_nil : syncEvents [] = [] := rfl

@[simp] theorem syncEvents_cons_syncAcquired (es : List Event) :
    syncEvents (.syncAcquired :: es) = .syncAcquired :: syncEvents es := rfl

@[simp] theorem syncEvents_cons_syncLost (es : List Event) :
    syncEvents (.syncLost :: es) = .syncLost :: syncEvents es := rfl

@[simp] theorem syncEvents_cons_byteRejected (es : List Event) : syncEvents (.byteRejected :: es) = syncEvents es := rfl

@[simp] theorem syncEvents_append (es fs : List Event) : syncEvents (es ++ fs) = syncEvents es ++ syncEvents fs :=
  List.filter_append es fs

/-- Whether the event after es is to be `SyncAcquired`, in an alternation that starts with it when b is true. -/
def awaitsAcquired (b : Bool) (es : List Event) : Bool := es.getLast?.elim b fun e => decide (e ≠ .syncAcquired)

theorem awaitsAcquired_cons (b : Bool) (e : Event) (es : List Event) :
    awaitsAcquired b (e :: es) = awaitsAcquired (decide (e ≠ .syncAcquired)) es := by
  rw [awaitsAcquired, awaitsAcquired, List.getLast?_cons]
  cases es.getLast? <;> rfl

theorem awaitsAcquired_true_iff (es : List Event) :
    awaitsAcquired true es = true ↔ es.getLast? ≠ some .syncAcquired := by
  unfold awaitsAcquired
  cases es.getLast? <;> simp

/-- One more event keeps the alternation where it is the awaited one. -/
theorem alternates_concat (b : Bool) (es : List Event) (e : Event) :
    alternates b (es ++ [e]) = (alternates b es && alternates (awaitsAcquired b es) [e]) := by
  induction es generalizing b with
  | nil => rfl
  | cons f fs ih =>
    rw [awaitsAcquired_cons]
    cases b <;> cases f <;> simp [alternates, ih]

/-- The sync events sent alternate, and the mode is the latest one's. -/
def State.AlternatesSync (s : State) : Prop :=
  alternates true (syncEvents s.events) = true ∧
    (s.sync = .synchronized ↔ (syncEvents s.events).getLast? = some .syncAcquired)

/-- `ACQUIRE` sends the event awaited while hunting and `LOSE` the one awaited while locked; the others send neither. -/
theorem ByteStep.alternatesSync {b : Byte} {s t : State} (h : ByteStep b s t) (hs : s.AlternatesSync) :
    t.AlternatesSync := by
  obtain ⟨halt, hmode⟩ := hs
  cases h with
  | payload hsync hc => exact ⟨halt, hmode⟩
  | acquire hsync hb =>
    have hawait := (awaitsAcquired_true_iff _).mpr (mt hmode.mpr (by simp [hsync]))
    exact ⟨by simp [alternates_concat, halt, hawait, alternates], by simp⟩
  | confirm hsync hc hb => exact ⟨halt, iff_of_true rfl (hmode.mp hsync)⟩
  | lose hsync hc hb =>
    have hawait : awaitsAcquired true (syncEvents s.events) = false := by
      rw [awaitsAcquired, hmode.mp hsync]
      rfl
    exact ⟨by simp [alternates_concat, halt, hawait, alternates], by simp⟩
  | slide hsync hb =>
    have hlast := mt hmode.mpr (by simp [hsync])
    exact ⟨by simpa using halt, by simpa using hlast⟩

theorem FallStep.alternatesSync {d : Bool} {s t : State} (h : FallStep d s t) (hs : s.AlternatesSync) :
    t.AlternatesSync := by
  cases h with
  | shift c hc => exact hs
  | complete t hc hb => exact hb.alternatesSync hs

/-- Settles O55: reset has sent no event and is `Unsynchronized`, and every falling edge keeps
`State.AlternatesSync`. -/
theorem syncEventsAlternate : Obligations.SyncEventsAlternate := by
  intro m xs t rs h
  have hreset : State.reset.AlternatesSync := ⟨rfl, iff_of_false (by decide) (by decide)⟩
  exact feed_bits_induction (P := fun _ s => s.AlternatesSync) (ds := []) (fun _ _ _ hs => hs)
    (fun _ _ _ _ hs hf => hf.alternatesSync hs) hreset h

end Sys2Proof.Machine

/-! # Proofs: the diagnostic events and malformed calls

Each event of 60_exceptions.md is read off the byte-level operation that a Sample runs; a Sample that completes no byte
sends no event and leaves the mode (R130 to R133). The software wrapper stands before the first Sample (R137). -/

namespace Sys2Proof.Machine

/-! ## A Sample that completes a byte -/

/-- The Sample x completes a byte in s: it is a falling edge at the count 7 (40_bit_sampler.md R73). -/
def State.CompletesByte (m : Masks) (x : Sample) (s : State) : Prop :=
  s.strobe = .asserted ∧ crx m x = false ∧ s.cnt = 7

theorem SampleStep.silent_or_completesByte {m : Masks} {x : Sample} {s t : State} (h : SampleStep m x s t) :
    (¬ s.CompletesByte m x ∧ s.SilentTo t ∧ t.sync = s.sync) ∨
    (s.CompletesByte m x ∧ ByteStep (shiftIn s.acc (drx m x)) (s.setStrobe .idle) t) := by
  cases h with
  | quiet hq => exact .inl ⟨fun ⟨hs, hx, _⟩ => hq ⟨hs, hx⟩, ⟨rfl, rfl, rfl⟩, rfl⟩
  | fall t hs hx hf =>
    cases hf with
    | shift c hc =>
      refine .inl ⟨fun ⟨_, _, hcnt⟩ => ?_, ⟨rfl, rfl, rfl⟩, rfl⟩
      have hlt := c.isLt
      rw [hc, hcnt] at hlt
      exact absurd hlt (by decide)
    | complete t hc hb => exact .inr ⟨⟨hs, hx, Fin.ext hc⟩, hb⟩

/-! ## `ByteRejected` (60_exceptions.md R133) -/

/-- A byte is not accepted when it is tested, while hunting or at a packet boundary, and is no sync value. -/
theorem State.not_accepts_iff (s : State) (b : Byte) :
    ¬ s.Accepts b ↔ (s.sync = .unsynchronized ∨ s.cur = 0) ∧ ¬ IsSyncValue b := by
  cases hs : s.sync <;> simp [State.Accepts, hs]

theorem ByteStep.evRej_iff {b : Byte} {s t : State} (h : ByteStep b s t) :
    t.out.evRej = true ↔ (s.sync = .unsynchronized ∨ s.cur = 0) ∧ ¬ IsSyncValue b := by
  rw [← s.not_accepts_iff]
  rcases h.accepted_or_rejected with ⟨haccepts, hacc⟩ | ⟨hrejects, hrej⟩
  · simp [haccepts, hacc.evRej]
  · simp [hrejects, hrej.evRej]

theorem OutRec.count_byteRejected_eventList (r : OutRec) : r.eventList.count .byteRejected = r.evRej.toNat := by
  unfold OutRec.eventList
  cases r.evAcq <;> cases r.evLost <;> cases r.evRej <;> rfl

/-- Settles O33: a completed byte is rejected by `ByteStep.evRej_iff`, and the event stream grows by the record. -/
theorem byteRejectedExactlyOnFailedTest : Obligations.ByteRejectedExactlyOnFailedTest := by
  intro m x s t h
  have hstep := sampleStep_of_takeSample h
  refine ⟨?_, ?_⟩
  · rcases hstep.silent_or_completesByte with ⟨hno, ⟨hout, -, -⟩, -⟩ | ⟨⟨hs, hx, hcnt⟩, hb⟩
    · rw [hout]
      exact iff_of_false Bool.false_ne_true fun ⟨hs, hx, hcnt, _⟩ => hno ⟨hs, hx, hcnt⟩
    · rw [hb.evRej_iff]
      simp [hs, hx, hcnt]
  · rw [hstep.growsByRecord.2, List.count_append, OutRec.count_byteRejected_eventList]

/-! ## `SyncAcquired` and `SyncLost` (60_exceptions.md R131, R132) -/

/-- `ACQUIRE` is the one byte-level operation that gains sync, and it emits the byte it has tested. -/
theorem ByteStep.evAcq_iff {b : Byte} {s t : State} (h : ByteStep b s t) :
    (t.out.evAcq = true ↔ s.sync = .unsynchronized ∧ t.sync = .synchronized) ∧
    (t.out.evAcq = true → t.out.outValid = true ∧ IsSyncValue t.out.outByte) := by
  cases h with
  | payload hs hc => simp [hs, OutRec.none]
  | acquire hs hb => exact ⟨iff_of_true rfl ⟨hs, rfl⟩, fun _ => ⟨rfl, hb⟩⟩
  | confirm hs hc hb => simp [hs, OutRec.none]
  | lose hs hc hb => simp [OutRec.raise, OutRec.none]
  | slide hs hb => simp [OutRec.raise, OutRec.none]

/-- Settles O31: without a completed byte `SYNC` stays and no event is sent; else it is `ByteStep.evAcq_iff`. -/
theorem syncAcquiredExactlyOnGain : Obligations.SyncAcquiredExactlyOnGain := by
  refine ⟨fun m x s t h => ?_, fun b s t h => ?_⟩
  · rcases (sampleStep_of_takeSample h).silent_or_completesByte with ⟨-, ⟨hout, -, -⟩, hsync⟩ | ⟨-, hb⟩
    · rw [hout, hsync]
      cases s.sync <;> simp [OutRec.none]
    · exact hb.evAcq_iff
  · cases h
    rfl

/-- `LOSE` is the one byte-level operation that loses sync, at a packet boundary and with a rejection. -/
theorem ByteStep.evLost_iff {b : Byte} {s t : State} (h : ByteStep b s t) :
    (t.out.evLost = true ↔ s.sync = .synchronized ∧ t.sync = .unsynchronized) ∧
    (t.out.evLost = true → s.cur = 0 ∧ t.out.evRej = true) := by
  cases h with
  | payload hs hc => simp [hs, OutRec.none]
  | acquire hs hb => simp [OutRec.raise, OutRec.none]
  | confirm hs hc hb => simp [OutRec.none]
  | lose hs hc hb => exact ⟨iff_of_true rfl ⟨hs, rfl⟩, fun _ => ⟨Fin.ext hc, rfl⟩⟩
  | slide hs hb => simp [hs, OutRec.raise, OutRec.none]

/-- Settles O32: without a completed byte `SYNC` stays and no event is sent; else it is `ByteStep.evLost_iff`. -/
theorem syncLostExactlyOnLoss : Obligations.SyncLostExactlyOnLoss := by
  refine ⟨fun m x s t h => ?_, fun b s t h => ?_⟩
  · rcases (sampleStep_of_takeSample h).silent_or_completesByte with ⟨-, ⟨hout, -, -⟩, hsync⟩ | ⟨-, hb⟩
    · rw [hout, hsync]
      cases s.sync <;> simp [OutRec.none]
    · exact hb.evLost_iff
  · cases h
    rfl

/-! ## The software wrapper (60_exceptions.md R137) -/

/-- Settles O59: the wrapper faults without a buffer or where its range test fails, and feeds where it holds. -/
theorem malformedFeedCallsAreRejected : Obligations.MalformedFeedCallsAreRejected := by
  refine ⟨fun m n s => rfl, fun m xs n s h => if_neg ?_, fun m xs n s h => if_pos ?_⟩ <;> omega

end Sys2Proof.Machine

/-! # Proofs: reset and the signal interface

What one cycle with `rst = 1` and one cycle without a Sample do (70_reset_and_hazards.md R150, R153), then the step that
takes such a cycle from the queue. -/

namespace Sys2Proof.Machine

/-! ## One cycle with `rst`, and one without a Sample -/

/-- `rst` wins: neither `in_valid` nor the Sample is read. -/
theorem runCycle_of_rst (m : Masks) {c : Cycle} (s : State) (hrst : c.rst = true) :
    runCycle m c s = .next s.applyReset :=
  if_pos hrst

theorem runCycle_of_not_inValid (m : Masks) {c : Cycle} (s : State) (hrst : c.rst = false) (hvalid : c.inValid = false) :
    runCycle m c s = .next s.clearOut := by
  simp [runCycle, hrst, hvalid]

/-! ## The step that takes the cycle -/

theorem step_of_input_eq_cons {s : State} {c : Cycle} {rest : List Cycle} (h : s.input = c :: rest) :
    step s = runCycle Config.masks c { s with input := rest } := by
  rw [← step_cons, ← h]

/-- Without a pending cycle the step is an idle cycle (log entry 4). -/
theorem step_of_input_eq_nil {s : State} (h : s.input = []) : step s = runCycle Config.masks Cycle.idle s := by
  rw [step, stepWith, h]

/-- Settles O12: the cycle is taken from the queue, and `applyReset` keeps the queue and both streams. -/
theorem stepOnRstResetsTheRegisters : Obligations.StepOnRstResetsTheRegisters := by
  intro s v x rest hinput
  rw [step_of_input_eq_cons hinput, runCycle_of_rst _ _ rfl]
  rfl

/-- Settles O13: a cycle without a Sample only clears the output record, and an empty queue stands for such a cycle. -/
theorem stepWithoutSampleHolds : Obligations.StepWithoutSampleHolds := by
  refine ⟨fun s x rest hinput => ?_, fun s hinput => ?_⟩
  · rw [step_of_input_eq_cons hinput, runCycle_of_not_inValid _ _ rfl rfl, State.clearOut]
  · rw [step_of_input_eq_nil hinput, runCycle_of_not_inValid _ _ rfl rfl, State.clearOut]

end Sys2Proof.Machine
